-- ==== Sys2Proof/Config.lean ====
section
/-! DEFINITION. What the spec leaves free. -/

namespace Sys2Proof

/-- FREE VALUE (log 6). Two trip causes may arrive together, and either may be taken first (R96). The n-th time this
happens, whether the cause that the model lists second is taken first. No body: nothing can be proved of it. -/
opaque Config.secondFirst : Nat → Bool

/-- FREE VALUE (log 42). What the four bytes of the time since a car's last report carry once that many ms no longer fit
into them: a report is kept while its link is LOST, and the spec gives no value (R133, R189). No body: nothing can be
proved of it. -/
opaque Config.longReportAge : Nat → BitVec 32

end Sys2Proof
end

