-- ==== Sys2Proof/Word.lean ====
section
/-! DEFINITION. The byte and the media number: the words that frames carry (spec 11, R188, R189; spec 08). -/

namespace Sys2Proof

/-- One byte of a frame on any link. -/
abbrev Byte := BitVec 8

/-- A media number: 40 bits, 0 being no medium (spec 08, section 8.1). -/
abbrev Media := BitVec 40

/-- Two bytes, most significant first (R188). -/
abbrev word2 (a b : Byte) : BitVec 16 := a ++ b

/-- Four bytes, most significant first (R188). -/
abbrev word4 (a b c d : Byte) : BitVec 32 := a ++ b ++ c ++ d

/-- Five bytes, most significant first (R188, R189). -/
abbrev word5 (a b c d e : Byte) : Media := a ++ b ++ c ++ d ++ e

end Sys2Proof
end

