-- ==== Sys2Proof/Machine/Codec.lean ====
section
/-! DEFINITION. Byte order and the CRC of every link (spec 11, section 11.1). -/

namespace Sys2Proof.Machine

/-- One bit into the CRC register (R188): shift left, with the generator 1021h when the bit differs from bit 15. -/
def crcBit (r : BitVec 16) (b : Bool) : BitVec 16 :=
  if b = r.getLsbD 15 then r <<< 1 else (r <<< 1) ^^^ 0x1021#16

/-- One byte into the CRC register, most significant bit first (R188). -/
def crcByte (r : BitVec 16) (x : Byte) : BitVec 16 :=
  [7, 6, 5, 4, 3, 2, 1, 0].foldl (fun acc k => crcBit acc (x.getLsbD k)) r

/-- The CRC of a run of bytes: the register starts at FFFFh and is sent as it stands after the last byte (R188). -/
def crc16 (bytes : List Byte) : BitVec 16 :=
  bytes.foldl crcByte 0xFFFF#16

/-- A number as `n` bytes, most significant first (R188); higher bits are dropped. -/
def beBytes : Nat → Nat → List Byte
  | 0, _ => []
  | n + 1, v => BitVec.ofNat 8 (v / 256 ^ n) :: beBytes n v

/-- One byte of a number. -/
def be1 (v : Nat) : List Byte := beBytes 1 v
/-- Two bytes of a number. -/
def be2 (v : Nat) : List Byte := beBytes 2 v
/-- Four bytes of a number. -/
def be4 (v : Nat) : List Byte := beBytes 4 v
/-- Five bytes of a media number. -/
def be5 (m : Media) : List Byte := beBytes 5 m.toNat

/-- A signed value in two bytes of two's complement (R189). -/
def sbe2 (v : Int) : List Byte := be2 (BitVec.ofInt 16 v).toNat

/-- A signed value in four bytes of two's complement (R189). -/
def sbe4 (v : Int) : List Byte := be4 (BitVec.ofInt 32 v).toNat

/-- A flag in a byte of its own: 1 set, 0 clear (R189). -/
def flag1 (b : Bool) : List Byte := [if b then 1 else 0]

/-- A byte packed from flags, bit 0 first. -/
def bits (l : List Bool) : Nat :=
  l.foldr (fun b acc => (if b then 1 else 0) + 2 * acc) 0

/-- The bytes of a frame followed by their CRC, high byte first (R188). -/
def withCrc (bytes : List Byte) : List Byte :=
  bytes ++ be2 (crc16 bytes).toNat

/-- Whether a received frame ends in the CRC of the bytes before it (R188). A frame shorter than a CRC does not. -/
def crcGood (frame : List Byte) : Bool :=
  2 ≤ frame.length && withCrc (frame.take (frame.length - 2)) == frame

end Sys2Proof.Machine
end

