-- ==== Sys2Proof/Syntax.lean ====
section
/-! DEFINITION. The commands of the block: one constructor of Instr for each row of spec/opcode_table.json, with the
row's operands. Operands of line-link commands are the fields of their parameter bytes (spec 11, section 11.2). -/

namespace Sys2Proof

/-- The two cars (spec 00). -/
inductive Car where
  | a | b
  deriving DecidableEq, Repr

/-- The two door sides, named as seen facing uphill (spec 00). -/
inductive Side where
  | left | right
  deriving DecidableEq, Repr

/-- The two quadrature channels (spec 02). -/
inductive Channel where
  | rope | drive
  deriving DecidableEq, Repr

/-- The two phases of a quadrature channel (spec 02, section 2.1). -/
inductive QuadPhase where
  | a | b
  deriving DecidableEq, Repr

/-- The four analog channels of the environment monitor (spec 04, section 4.1). -/
inductive MonChannel where
  | wind | tension | rail | motor
  deriving DecidableEq, Repr

/-- The parameters of a line-link command: its fields, or a parameter length that does not match the form of the
command, which R178 answers BAD PARAMETER ahead of every other check. -/
inductive Form (α : Type) where
  | wrongLength
  | fields (args : α)
  deriving DecidableEq, Repr

/-- A command without parameters. -/
structure NoArgs where
  deriving DecidableEq, Repr

/-- SET CLOCK: day 2, minute 2. -/
structure ClockArgs where
  day : BitVec 16
  minute : BitVec 16
  deriving DecidableEq, Repr

/-- SET PARAMETER: number 1, value 4 (signed). -/
structure ParamArgs where
  number : Byte
  value : BitVec 32
  deriving DecidableEq, Repr

/-- WRITE STAGED HEADER: L 4, station count 1. -/
structure HeaderArgs where
  trackLen : BitVec 32
  count : Byte
  deriving DecidableEq, Repr

/-- WRITE STAGED STATION: index, empty marker, berth, exit side, boarding side, alight time, board time. -/
structure StationArgs where
  index : Byte
  marker : Byte
  berth : BitVec 32
  exitSide : Byte
  boardSide : Byte
  alight : Byte
  board : BitVec 16
  deriving DecidableEq, Repr

/-- WRITE STAGED SEGMENT: index, empty marker, start, gradient, line limit, exposed flag. -/
structure SegmentArgs where
  index : Byte
  marker : Byte
  start : BitVec 32
  gradient : BitVec 16
  limit : BitVec 16
  exposed : Byte
  deriving DecidableEq, Repr

/-- READ GEOMETRY: copy, kind, index. -/
structure ReadGeoArgs where
  copy : Byte
  kind : Byte
  index : Byte
  deriving DecidableEq, Repr

/-- START RUN: target station, run speed. -/
structure RunArgs where
  target : Byte
  speed : BitVec 16
  deriving DecidableEq, Repr

/-- REOPEN DOORS: car, reopen time in s. -/
structure ReopenArgs where
  car : Byte
  time : Byte
  deriving DecidableEq, Repr

/-- EVACUATE and END EVACUATION: car, side. -/
structure CarSideArgs where
  car : Byte
  side : Byte
  deriving DecidableEq, Repr

/-- ADD RESTRICTION: bytes 3 to 24 of the restriction transfer record (spec 11, section 11.4). -/
structure AddRestrictionArgs where
  presence : Byte
  spanStart : BitVec 32
  spanEnd : BitVec 32
  limit : BitVec 16
  direction : Byte
  fromDay : BitVec 16
  fromMinute : BitVec 16
  untilDay : BitVec 16
  untilMinute : BitVec 16
  label : BitVec 16
  deriving DecidableEq, Repr

/-- AMEND RESTRICTION: entry, limit, action, until day, until minute. -/
structure AmendRestrictionArgs where
  entry : Byte
  limit : BitVec 16
  action : Byte
  untilDay : BitVec 16
  untilMinute : BitVec 16
  deriving DecidableEq, Repr

/-- The entitlement transfer record of 20 bytes, bit field by bit field (spec 11, section 11.3). -/
structure EntTransfer where
  media : Media
  /-- bit 7 of byte 5 -/
  topBit : Bool
  group : BitVec 4
  blocked : Bool
  kind : BitVec 2
  /-- byte 6, bit 7 included -/
  presence : Byte
  fieldA : BitVec 16
  untilDay : BitVec 16
  cap : BitVec 4
  stations : BitVec 4
  /-- bits 7 and 6 of byte 12, to which the layout gives no meaning -/
  spare : BitVec 2
  stampStation : BitVec 2
  ridesToday : BitVec 4
  rideDay : BitVec 16
  stampDay : BitVec 16
  stampMinute : BitVec 11
  claimGate : BitVec 5
  claimId : Byte
  deriving DecidableEq, Repr

/-- AMEND ENTITLEMENT: media, actions (two bits a field, R190), and the five values. -/
structure AmendEntArgs where
  media : Media
  actions : BitVec 16
  rides : Byte
  group : Byte
  untilDay : BitVec 16
  stations : Byte
  cap : Byte
  deriving DecidableEq, Repr

/-- LOOK UP ENTITLEMENT: either length matches its form, 6 with a media number or 3 with a slot number (R190). The
form byte is 0 for media and 1 for slot. -/
inductive LookUpArgs where
  | long (form : Byte) (media : Media)
  | short (form : Byte) (slot : BitVec 16)
  deriving DecidableEq, Repr

/-- SET GATE: address, station (FFh NONE), enable flag. -/
structure GateArgs where
  address : Byte
  station : Byte
  enable : Byte
  deriving DecidableEq, Repr

/-- The levels sampled at power-on reset: the quadrature phases (R19), the datum inputs (R10), the emergency-stop and
drive-fault inputs (R97) and the torque-ready input (R73). -/
structure Levels where
  ropeA : Bool
  ropeB : Bool
  driveA : Bool
  driveB : Bool
  datum0 : Bool
  datum1 : Bool
  datum2 : Bool
  datum3 : Bool
  estop : Bool
  driveFault : Bool
  torqueReady : Bool
  deriving DecidableEq, Repr

/-- The commands: one constructor for each row of spec/opcode_table.json, in the table's order. -/
inductive Instr where
  /-- SET_CLOCK (R33). -/
  | setClock (p : Form ClockArgs)
  /-- GET_CLOCK (R34). -/
  | getClock (p : Form NoArgs)
  /-- SET_PARAMETER (R181). -/
  | setParameter (p : Form ParamArgs)
  /-- GET_PARAMETER (R182): the parameter number. -/
  | getParameter (p : Form Byte)
  /-- WRITE_STAGED_HEADER (R2). -/
  | writeStagedHeader (p : Form HeaderArgs)
  /-- WRITE_STAGED_STATION (R2). -/
  | writeStagedStation (p : Form StationArgs)
  /-- WRITE_STAGED_SEGMENT (R2). -/
  | writeStagedSegment (p : Form SegmentArgs)
  /-- READ_GEOMETRY (R3). -/
  | readGeometry (p : Form ReadGeoArgs)
  /-- COMMIT_GEOMETRY (R6). -/
  | commitGeometry (p : Form NoArgs)
  /-- ENTER_INSPECTION (R17). -/
  | enterInspection (p : Form NoArgs)
  /-- LEAVE_INSPECTION (R17). -/
  | leaveInspection (p : Form NoArgs)
  /-- HOME (R16): the station. -/
  | home (p : Form Byte)
  /-- UNPARK (R66). -/
  | unpark (p : Form NoArgs)
  /-- PARK (R67). -/
  | park (p : Form NoArgs)
  /-- START_RUN (R69). -/
  | startRun (p : Form RunArgs)
  /-- STOP_RUN (R76). -/
  | stopRun (p : Form NoArgs)
  /-- RESUME (R77). -/
  | resume (p : Form NoArgs)
  /-- EMERGENCY_STOP (R98). -/
  | emergencyStop (p : Form NoArgs)
  /-- RESET_TRIP (R106). -/
  | resetTrip (p : Form NoArgs)
  /-- ADVANCE (R122): the selector, 0 A, 1 B, 2 BOTH. -/
  | advance (p : Form Byte)
  /-- REOPEN_DOORS (R125). -/
  | reopenDoors (p : Form ReopenArgs)
  /-- ACK_ALARM (R129): the car. -/
  | ackAlarm (p : Form Byte)
  /-- EVACUATE (R131). -/
  | evacuate (p : Form CarSideArgs)
  /-- END_EVACUATION (R132). -/
  | endEvacuation (p : Form CarSideArgs)
  /-- READ_STOP_RECORD (R133): the car. -/
  | readStopRecord (p : Form Byte)
  /-- ADD_RESTRICTION (R40, R41). -/
  | addRestriction (p : Form AddRestrictionArgs)
  /-- AMEND_RESTRICTION (R42). -/
  | amendRestriction (p : Form AmendRestrictionArgs)
  /-- RETIRE_RESTRICTION (R43): the entry. -/
  | retireRestriction (p : Form Byte)
  /-- READ_RESTRICTION (R44): the entry. -/
  | readRestriction (p : Form Byte)
  /-- ADD_ENTITLEMENT (R141, R142). -/
  | addEntitlement (p : Form EntTransfer)
  /-- AMEND_ENTITLEMENT (R143). -/
  | amendEntitlement (p : Form AmendEntArgs)
  /-- BLOCK_ENTITLEMENT (R144): the media number. -/
  | blockEntitlement (p : Form Media)
  /-- UNBLOCK_ENTITLEMENT (R144): the media number. -/
  | unblockEntitlement (p : Form Media)
  /-- RETIRE_ENTITLEMENT (R145): the media number. -/
  | retireEntitlement (p : Form Media)
  /-- LOOK_UP_ENTITLEMENT (R146). -/
  | lookUpEntitlement (p : Form LookUpArgs)
  /-- COUNT (R147). -/
  | count (p : Form NoArgs)
  /-- SET_GATE (R155). -/
  | setGate (p : Form GateArgs)
  /-- READ_GATE_STATUS (R172): the gate address. -/
  | readGateStatus (p : Form Byte)
  /-- READ_LINE_STATUS (R185). -/
  | readLineStatus (p : Form NoArgs)
  /-- READ_MONITOR (R61). -/
  | readMonitor (p : Form NoArgs)
  /-- SENSE (R184). -/
  | sense (p : Form NoArgs)
  /-- SOFT_RESET (R186). -/
  | softReset (p : Form NoArgs)
  /-- FRAME_ERROR (R177): a complete frame with a bad length, byte count or CRC, carrying this code. -/
  | frameError (code : Byte)
  /-- INVALID (R177): a complete, well-formed frame with this unknown code. -/
  | invalid (code : Byte)
  /-- BUSY (R177, R179): a complete frame with this code released while a command is executing. -/
  | busy (code : Byte)
  /-- COUNTING_EDGE (R19 to R21): phase A of the channel changes to this level, phase B being low, at this value of
  the 1 µs timebase. -/
  | countingEdge (ch : Channel) (level : Bool) (stamp : Nat)
  /-- STANDSTILL_TIMEOUT (R23). -/
  | standstillTimeout (ch : Channel)
  /-- REST_CONFIRM (R26). -/
  | restConfirm
  /-- SLIP_TIMER_EXPIRY (R28). -/
  | slipTimerExpiry
  /-- DATUM_EDGE (R10): the taken level of this station's datum input goes active. -/
  | datumEdge (station : Fin 4)
  /-- MONITOR_SAMPLE (R49): the channel and its converter reading. -/
  | monitorSample (ch : MonChannel) (reading : BitVec 12)
  /-- MINUTE_BOUNDARY (R32). -/
  | minuteBoundary
  /-- HAUL_SAMPLE (R80). -/
  | haulSample
  /-- PWM_PERIOD (R64). -/
  | pwmPeriod
  /-- TORQUE_READY (R73). -/
  | torqueReady
  /-- TORQUE_READY_TIMEOUT (R74). -/
  | torqueReadyTimeout
  /-- EMERGENCY_STOP_INPUT (R97): the taken level becomes this. -/
  | emergencyStopInput (level : Bool)
  /-- DRIVE_FAULT_INPUT (R97): the taken level becomes this. -/
  | driveFaultInput (level : Bool)
  /-- TRIP_RESET_TIME (R105). -/
  | tripResetTime
  /-- DOWNLINK (R112). -/
  | downlink (car : Car)
  /-- UPLINK (R113): the link it arrived on, whether every character passed parity and stop bit, the bytes. -/
  | uplink (car : Car) (charsOk : Bool) (frame : List Byte)
  /-- CAR_LINK_TIMEOUT (R114). -/
  | carLinkTimeout (car : Car)
  /-- DOOR_FAULT (R119): the close deadline of this car's record expires. -/
  | doorFault (car : Car)
  /-- ALIGHT_TIME_EXPIRY (R121). -/
  | alightTimeExpiry (car : Car)
  /-- BOARD_TIME_EXPIRY (R122). -/
  | boardTimeExpiry (car : Car)
  /-- REOPEN_TIME_EXPIRY (R125). -/
  | reopenTimeExpiry (car : Car)
  /-- POLL_SLOT (R157). -/
  | pollSlot
  /-- GATE_RESPONSE (R161): whether every character passed parity and stop bit, and the bytes. -/
  | gateResponse (charsOk : Bool) (frame : List Byte)
  /-- RESPONSE_WINDOW_EXPIRY (R161). -/
  | responseWindowExpiry
  /-- CLAIM_LAPSE (R166): the deadline of the open claim with this id expires. -/
  | claimLapse (id : Byte)
  /-- POWER_ON_RESET (R187): with the levels sampled at the pins. -/
  | powerOnReset (levels : Levels)
  /-- TAKEN_PHASE_EDGE (R19): this phase of the channel changes to this level at this value of the timebase. -/
  | takenPhaseEdge (ch : Channel) (phase : QuadPhase) (level : Bool) (stamp : Nat)
  /-- DATUM_LEVEL_INACTIVE (R10): the taken level of this station's datum input goes inactive. -/
  | datumLevelInactive (station : Fin 4)
  /-- TORQUE_READY_INACTIVE (R73). -/
  | torqueReadyInactive
  deriving DecidableEq, Repr

end Sys2Proof
end

