-- ==== Sys2Proof/Decode.lean ====
section
/-! DEFINITION. Reading commands. No row of spec/opcode_table.json gives bits, so decodeTableWord spells none. The line
link's command frames (R176, R177, R188 to R191, spec 11 section 11.2) are read by decodeFrame and written by
encodeFrame. -/

namespace Sys2Proof

open Machine

/-- The command that a word spells by the bits of the table: no row of this table gives any. -/
def decodeTableWord (_nbits _w : Nat) : Option Instr := none

/-- The form of a command without parameters. -/
def formNone : List Byte → Form NoArgs
  | [] => .fields {}
  | _ => .wrongLength

/-- The form of a command with one byte. -/
def formByte : List Byte → Form Byte
  | [x] => .fields x
  | _ => .wrongLength

/-- The form of a command with a media number. -/
def formMedia : List Byte → Form Media
  | [a, b, c, d, e] => .fields (word5 a b c d e)
  | _ => .wrongLength

/-- The fields of the entitlement transfer record (spec 11, section 11.3). -/
def formEntTransfer : List Byte → Form EntTransfer
  | [m0, m1, m2, m3, m4, k, pr, a0, a1, u0, u1, sc, rt, d0, d1, t0, t1, g0, g1, ci] =>
    .fields
      { media := word5 m0 m1 m2 m3 m4
        topBit := k.getLsbD 7
        group := k.extractLsb' 3 4
        blocked := k.getLsbD 2
        kind := k.extractLsb' 0 2
        presence := pr
        fieldA := word2 a0 a1
        untilDay := word2 u0 u1
        cap := sc.extractLsb' 4 4
        stations := sc.extractLsb' 0 4
        spare := rt.extractLsb' 6 2
        stampStation := rt.extractLsb' 4 2
        ridesToday := rt.extractLsb' 0 4
        rideDay := word2 d0 d1
        stampDay := word2 t0 t1
        stampMinute := (word2 g0 g1).extractLsb' 5 11
        claimGate := (word2 g0 g1).extractLsb' 0 5
        claimId := ci }
  | _ => .wrongLength

/-- The command of a code with its parameter bytes (spec 11, section 11.2); none where the code names no command. -/
def decodeCommand (code : Byte) (p : List Byte) : Option Instr :=
  match code.toNat with
  | 0x01 => some (.setClock (match p with
      | [a, b, c, d] => .fields ⟨word2 a b, word2 c d⟩
      | _ => .wrongLength))
  | 0x02 => some (.getClock (formNone p))
  | 0x03 => some (.setParameter (match p with
      | [n, a, b, c, d] => .fields ⟨n, word4 a b c d⟩
      | _ => .wrongLength))
  | 0x04 => some (.getParameter (formByte p))
  | 0x10 => some (.writeStagedHeader (match p with
      | [a, b, c, d, n] => .fields ⟨word4 a b c d, n⟩
      | _ => .wrongLength))
  | 0x11 => some (.writeStagedStation (match p with
      | [i, m, a, b, c, d, x, y, t, u, v] => .fields ⟨i, m, word4 a b c d, x, y, t, word2 u v⟩
      | _ => .wrongLength))
  | 0x12 => some (.writeStagedSegment (match p with
      | [i, m, a, b, c, d, g, h, u, v, e] => .fields ⟨i, m, word4 a b c d, word2 g h, word2 u v, e⟩
      | _ => .wrongLength))
  | 0x13 => some (.readGeometry (match p with
      | [c, k, i] => .fields ⟨c, k, i⟩
      | _ => .wrongLength))
  | 0x14 => some (.commitGeometry (formNone p))
  | 0x20 => some (.enterInspection (formNone p))
  | 0x21 => some (.leaveInspection (formNone p))
  | 0x22 => some (.home (formByte p))
  | 0x23 => some (.unpark (formNone p))
  | 0x24 => some (.park (formNone p))
  | 0x30 => some (.startRun (match p with
      | [t, a, b] => .fields ⟨t, word2 a b⟩
      | _ => .wrongLength))
  | 0x31 => some (.stopRun (formNone p))
  | 0x32 => some (.resume (formNone p))
  | 0x33 => some (.emergencyStop (formNone p))
  | 0x34 => some (.resetTrip (formNone p))
  | 0x40 => some (.advance (formByte p))
  | 0x41 => some (.reopenDoors (match p with
      | [c, t] => .fields ⟨c, t⟩
      | _ => .wrongLength))
  | 0x42 => some (.ackAlarm (formByte p))
  | 0x43 => some (.evacuate (match p with
      | [c, d] => .fields ⟨c, d⟩
      | _ => .wrongLength))
  | 0x44 => some (.endEvacuation (match p with
      | [c, d] => .fields ⟨c, d⟩
      | _ => .wrongLength))
  | 0x45 => some (.readStopRecord (formByte p))
  | 0x50 => some (.addRestriction (match p with
      | [pr, s0, s1, s2, s3, e0, e1, e2, e3, l0, l1, dir, f0, f1, g0, g1, u0, u1, v0, v1, b0, b1] =>
        .fields ⟨pr, word4 s0 s1 s2 s3, word4 e0 e1 e2 e3, word2 l0 l1, dir,
          word2 f0 f1, word2 g0 g1, word2 u0 u1, word2 v0 v1, word2 b0 b1⟩
      | _ => .wrongLength))
  | 0x51 => some (.amendRestriction (match p with
      | [e, l0, l1, a, u0, u1, v0, v1] => .fields ⟨e, word2 l0 l1, a, word2 u0 u1, word2 v0 v1⟩
      | _ => .wrongLength))
  | 0x52 => some (.retireRestriction (formByte p))
  | 0x53 => some (.readRestriction (formByte p))
  | 0x60 => some (.addEntitlement (formEntTransfer p))
  | 0x61 => some (.amendEntitlement (match p with
      | [a, b, c, d, e, x, y, r, g, u, v, st, cap] =>
        .fields ⟨word5 a b c d e, word2 x y, r, g, word2 u v, st, cap⟩
      | _ => .wrongLength))
  | 0x62 => some (.blockEntitlement (formMedia p))
  | 0x63 => some (.unblockEntitlement (formMedia p))
  | 0x64 => some (.retireEntitlement (formMedia p))
  | 0x65 => some (.lookUpEntitlement (match p with
      | [f, a, b, c, d, e] => .fields (.long f (word5 a b c d e))
      | [f, a, b] => .fields (.short f (word2 a b))
      | _ => .wrongLength))
  | 0x66 => some (.count (formNone p))
  | 0x70 => some (.setGate (match p with
      | [a, b, c] => .fields ⟨a, b, c⟩
      | _ => .wrongLength))
  | 0x71 => some (.readGateStatus (formByte p))
  | 0x80 => some (.readLineStatus (formNone p))
  | 0x81 => some (.readMonitor (formNone p))
  | 0x82 => some (.sense (formNone p))
  | 0x83 => some (.softReset (formNone p))
  | _ => none

/-- What the bytes of one SPI transaction hand to the device (R175 to R177): nothing for a transaction cut short or one
that begins with the read code 00h; FRAME ERROR for a complete frame that fails the frame check; INVALID for an unknown
code; otherwise the command. -/
def decodeFrame : List Byte → Option Instr
  | code :: n :: rest =>
    if code = 0 then none
    else if 60 < n.toNat then some (.frameError code)
    else if rest.length < n.toNat + 2 then none
    else if n.toNat + 2 < rest.length then some (.frameError code)
    else if crcGood (code :: n :: rest) then
      some ((decodeCommand code (rest.take n.toNat)).getD (.invalid code))
    else some (.frameError code)
  | _ => none

/-- What a released frame hands to the device while a command is executing: BUSY, the frame being inspected no further
than its completeness and its code (R177). -/
def judgeFrame (executing : Bool) (bytes : List Byte) : Option Instr :=
  match decodeFrame bytes, bytes with
  | some i, code :: _ => some (if executing then .busy code else i)
  | _, _ => none

/-- The bytes of a word, most significant first. -/
def wordBytes (n : Nat) {w : Nat} (x : BitVec w) : List Byte := beBytes n x.toNat

/-- The 20 bytes of the entitlement transfer record (spec 11, section 11.3). -/
def entTransferBytes (t : EntTransfer) : List Byte :=
  wordBytes 5 t.media
    ++ [BitVec.ofBool t.topBit ++ t.group ++ BitVec.ofBool t.blocked ++ t.kind, t.presence]
    ++ wordBytes 2 t.fieldA ++ wordBytes 2 t.untilDay
    ++ [t.cap ++ t.stations, t.spare ++ t.stampStation ++ t.ridesToday]
    ++ wordBytes 2 t.rideDay ++ wordBytes 2 t.stampDay
    ++ wordBytes 2 (t.stampMinute ++ t.claimGate) ++ [t.claimId]

/-- A command's code and parameter bytes where its parameters match its form. -/
def formBytes {α : Type} (code : Nat) (f : α → List Byte) : Form α → Option (Byte × List Byte)
  | .fields x => some (BitVec.ofNat 8 code, f x)
  | .wrongLength => none

/-- The code and parameter bytes of a line-link command (spec 11, section 11.2). -/
def commandBytes : Instr → Option (Byte × List Byte)
  | .setClock p => formBytes 0x01 (fun x => wordBytes 2 x.day ++ wordBytes 2 x.minute) p
  | .getClock p => formBytes 0x02 (fun _ => []) p
  | .setParameter p => formBytes 0x03 (fun x => x.number :: wordBytes 4 x.value) p
  | .getParameter p => formBytes 0x04 (fun x => [x]) p
  | .writeStagedHeader p => formBytes 0x10 (fun x => wordBytes 4 x.trackLen ++ [x.count]) p
  | .writeStagedStation p => formBytes 0x11 (fun x =>
      [x.index, x.marker] ++ wordBytes 4 x.berth ++ [x.exitSide, x.boardSide, x.alight] ++ wordBytes 2 x.board) p
  | .writeStagedSegment p => formBytes 0x12 (fun x =>
      [x.index, x.marker] ++ wordBytes 4 x.start ++ wordBytes 2 x.gradient ++ wordBytes 2 x.limit ++ [x.exposed]) p
  | .readGeometry p => formBytes 0x13 (fun x => [x.copy, x.kind, x.index]) p
  | .commitGeometry p => formBytes 0x14 (fun _ => []) p
  | .enterInspection p => formBytes 0x20 (fun _ => []) p
  | .leaveInspection p => formBytes 0x21 (fun _ => []) p
  | .home p => formBytes 0x22 (fun x => [x]) p
  | .unpark p => formBytes 0x23 (fun _ => []) p
  | .park p => formBytes 0x24 (fun _ => []) p
  | .startRun p => formBytes 0x30 (fun x => x.target :: wordBytes 2 x.speed) p
  | .stopRun p => formBytes 0x31 (fun _ => []) p
  | .resume p => formBytes 0x32 (fun _ => []) p
  | .emergencyStop p => formBytes 0x33 (fun _ => []) p
  | .resetTrip p => formBytes 0x34 (fun _ => []) p
  | .advance p => formBytes 0x40 (fun x => [x]) p
  | .reopenDoors p => formBytes 0x41 (fun x => [x.car, x.time]) p
  | .ackAlarm p => formBytes 0x42 (fun x => [x]) p
  | .evacuate p => formBytes 0x43 (fun x => [x.car, x.side]) p
  | .endEvacuation p => formBytes 0x44 (fun x => [x.car, x.side]) p
  | .readStopRecord p => formBytes 0x45 (fun x => [x]) p
  | .addRestriction p => formBytes 0x50 (fun x =>
      [x.presence] ++ wordBytes 4 x.spanStart ++ wordBytes 4 x.spanEnd ++ wordBytes 2 x.limit ++ [x.direction]
        ++ wordBytes 2 x.fromDay ++ wordBytes 2 x.fromMinute ++ wordBytes 2 x.untilDay ++ wordBytes 2 x.untilMinute
        ++ wordBytes 2 x.label) p
  | .amendRestriction p => formBytes 0x51 (fun x =>
      [x.entry] ++ wordBytes 2 x.limit ++ [x.action] ++ wordBytes 2 x.untilDay ++ wordBytes 2 x.untilMinute) p
  | .retireRestriction p => formBytes 0x52 (fun x => [x]) p
  | .readRestriction p => formBytes 0x53 (fun x => [x]) p
  | .addEntitlement p => formBytes 0x60 entTransferBytes p
  | .amendEntitlement p => formBytes 0x61 (fun x =>
      wordBytes 5 x.media ++ wordBytes 2 x.actions ++ [x.rides, x.group] ++ wordBytes 2 x.untilDay
        ++ [x.stations, x.cap]) p
  | .blockEntitlement p => formBytes 0x62 (fun x => wordBytes 5 x) p
  | .unblockEntitlement p => formBytes 0x63 (fun x => wordBytes 5 x) p
  | .retireEntitlement p => formBytes 0x64 (fun x => wordBytes 5 x) p
  | .lookUpEntitlement p => formBytes 0x65 (fun x => match x with
      | .long f m => f :: wordBytes 5 m
      | .short f n => f :: wordBytes 2 n) p
  | .count p => formBytes 0x66 (fun _ => []) p
  | .setGate p => formBytes 0x70 (fun x => [x.address, x.station, x.enable]) p
  | .readGateStatus p => formBytes 0x71 (fun x => [x]) p
  | .readLineStatus p => formBytes 0x80 (fun _ => []) p
  | .readMonitor p => formBytes 0x81 (fun _ => []) p
  | .sense p => formBytes 0x82 (fun _ => []) p
  | .softReset p => formBytes 0x83 (fun _ => []) p
  | .frameError _ => none
  | .invalid _ => none
  | .busy _ => none
  | .countingEdge _ _ _ => none
  | .standstillTimeout _ => none
  | .restConfirm => none
  | .slipTimerExpiry => none
  | .datumEdge _ => none
  | .monitorSample _ _ => none
  | .minuteBoundary => none
  | .haulSample => none
  | .pwmPeriod => none
  | .torqueReady => none
  | .torqueReadyTimeout => none
  | .emergencyStopInput _ => none
  | .driveFaultInput _ => none
  | .tripResetTime => none
  | .downlink _ => none
  | .uplink _ _ _ => none
  | .carLinkTimeout _ => none
  | .doorFault _ => none
  | .alightTimeExpiry _ => none
  | .boardTimeExpiry _ => none
  | .reopenTimeExpiry _ => none
  | .pollSlot => none
  | .gateResponse _ _ => none
  | .responseWindowExpiry => none
  | .claimLapse _ => none
  | .powerOnReset _ => none
  | .takenPhaseEdge _ _ _ _ => none
  | .datumLevelInactive _ => none
  | .torqueReadyInactive => none

/-- The command frame of a line-link command: code, length, parameters and CRC (R176). -/
def encodeFrame (i : Instr) : Option (List Byte) :=
  (commandBytes i).map fun (code, p) => withCrc (code :: BitVec.ofNat 8 p.length :: p)

end Sys2Proof
end

