-- ==== Sys2Proof/Machine/Params.lean ====
section
/-! DEFINITION. The parameters: numbers, classes and ranges (R18, R31, R48, R62, R89, R110, R134, R173), the orderings
between them (R181, check 4), and the store (spec 10, section 10.4). -/

namespace Sys2Proof.Machine

/-- One row of a parameter table: number, whether it is of class S, Min, Typ, Max. -/
structure ParamRow where
  number : Nat
  classS : Bool
  min : Int
  typ : Int
  max : Int
  deriving DecidableEq, Repr

/-- Parameters of GEO (R18) and SPD (R31). -/
def paramsGeoSpd : List ParamRow :=
  [⟨0x10, true, 50, 150, 1000⟩, ⟨0x11, true, 2000, 12000, 30000⟩, ⟨0x12, true, 200, 1000, 5000⟩,
    ⟨0x13, true, 10, 300, 2000⟩,
    ⟨0x20, true, 1000, 12500, 50000⟩, ⟨0x21, true, 1000, 12500, 50000⟩, ⟨0x22, false, 50, 500, 5000⟩,
    ⟨0x23, false, 100, 2000, 10000⟩, ⟨0x24, false, 100, 500, 3000⟩, ⟨0x25, false, 50, 500, 5000⟩,
    ⟨0x26, false, 50, 200, 2000⟩]

/-- Parameters of TSR (R48) and MON (R62). -/
def paramsTsrMon : List ParamRow :=
  [⟨0x30, false, 300, 5000, 12000⟩, ⟨0x31, false, 300, 6000, 12000⟩,
    ⟨0x40, true, -1000, 0, 5000⟩, ⟨0x41, true, -1000, 500, 5000⟩, ⟨0x42, true, -1000, 0, 5000⟩,
    ⟨0x43, true, -1000, 3000, 5000⟩, ⟨0x44, true, -1000, -400, 5000⟩, ⟨0x45, true, -1000, 600, 5000⟩,
    ⟨0x46, true, -1000, 0, 5000⟩, ⟨0x47, true, -1000, 2000, 5000⟩,
    ⟨0x48, false, 10, 150, 600⟩, ⟨0x49, false, 0, 130, 600⟩, ⟨0x4A, false, 10, 220, 600⟩,
    ⟨0x4B, false, 0, 200, 600⟩, ⟨0x4C, false, -400, 10, 200⟩, ⟨0x4D, false, -400, 30, 300⟩,
    ⟨0x4E, false, 200, 1300, 2000⟩, ⟨0x4F, false, 100, 1200, 2000⟩, ⟨0x50, false, 200, 1500, 2000⟩,
    ⟨0x51, false, 100, 1400, 2000⟩, ⟨0x52, false, 50, 600, 2000⟩, ⟨0x53, false, 500, 1800, 5000⟩,
    ⟨0x54, false, 400, 1700, 5000⟩, ⟨0x55, false, 20, 60, 100⟩, ⟨0x56, false, 1, 60, 600⟩,
    ⟨0x57, false, 1, 120, 600⟩, ⟨0x58, false, 10, 600, 3600⟩, ⟨0x59, false, 5, 30, 600⟩]

/-- Parameters of HAUL (R89), OSB (R110), STP (R134) and ADM (R173). -/
def paramsHaulToAdm : List ParamRow :=
  [⟨0x60, true, 200, 800, 1200⟩, ⟨0x61, true, 100, 300, 1200⟩, ⟨0x62, true, 0, 28, 255⟩,
    ⟨0x63, false, 100, 500, 1200⟩, ⟨0x64, true, 5, 10, 50⟩, ⟨0x65, false, 300, 500, 1000⟩,
    ⟨0x66, false, 0, 1000, 5000⟩, ⟨0x67, false, 300, 1000, 2000⟩, ⟨0x68, false, 300, 1500, 3000⟩,
    ⟨0x69, false, 500, 3000, 10000⟩, ⟨0x6A, true, 1, 200, 250⟩, ⟨0x6B, true, 0, 0, 1⟩,
    ⟨0x6C, false, 500, 11000, 12000⟩,
    ⟨0x70, true, 0, 16, 128⟩, ⟨0x71, true, 0, 150, 2000⟩, ⟨0x72, true, 0, 32, 255⟩,
    ⟨0x73, true, 1, 400, 3000⟩, ⟨0x74, true, 1000, 11500, 13000⟩, ⟨0x75, false, 0, 200, 2000⟩,
    ⟨0x76, false, 1, 5, 60⟩,
    ⟨0x80, false, 100, 250, 2000⟩, ⟨0x81, false, 60, 200, 1000⟩, ⟨0x82, false, 5, 20, 120⟩,
    ⟨0x83, true, 50, 75, 120⟩,
    ⟨0x90, false, 8, 10, 50⟩, ⟨0x91, false, 1, 3, 20⟩, ⟨0xA0, false, 2, 8, 60⟩, ⟨0xA1, false, 0, 10, 240⟩]

/-- Every parameter, in the order of spec 10, section 10.4. -/
def paramTable : List ParamRow := paramsGeoSpd ++ (paramsTsrMon ++ paramsHaulToAdm)

/-- The row of a parameter number; none where the number names no parameter. -/
def paramRow (n : Nat) : Option ParamRow := paramTable.find? (fun r => r.number == n)

/-- The three shapes of the orderings of R181, check 4. -/
inductive OrderKind where
  /-- low < high -/
  | below
  /-- low ≤ high -/
  | atMost
  /-- low + floor(low × 5 / 100) < high: the SLACK clear threshold (R62) -/
  | slackBelow
  deriving DecidableEq, Repr

/-- One ordering between two parameters. -/
structure Ordering2 where
  low : Nat
  high : Nat
  kind : OrderKind
  deriving DecidableEq, Repr

/-- The orderings of R18, R62, R89 and R110. -/
def orderings : List Ordering2 :=
  [⟨0x13, 0x12, .below⟩, ⟨0x10, 0x12, .below⟩,
    ⟨0x40, 0x41, .below⟩, ⟨0x42, 0x43, .below⟩, ⟨0x44, 0x45, .below⟩, ⟨0x46, 0x47, .below⟩,
    ⟨0x49, 0x48, .below⟩, ⟨0x4B, 0x4A, .below⟩, ⟨0x4F, 0x4E, .below⟩, ⟨0x51, 0x50, .below⟩,
    ⟨0x54, 0x53, .below⟩, ⟨0x4C, 0x4D, .below⟩, ⟨0x52, 0x54, .slackBelow⟩,
    ⟨0x61, 0x60, .atMost⟩, ⟨0x70, 0x72, .atMost⟩, ⟨0x71, 0x73, .below⟩]

/-- The SLACK clear threshold of a slack limit (section 4.2). -/
def slackClear (limit : Int) : Int := limit + limit * 5 / 100

/-- Whether an ordering holds between two values. -/
def OrderKind.holds (k : OrderKind) (low high : Int) : Bool :=
  match k with
  | .below => low < high
  | .atMost => low ≤ high
  | .slackBelow => slackClear low < high

/-- The parameter store: number and value, in the order of the table. -/
abbrev ParamStore := List (Nat × Int)

/-- The value held for a number. -/
def paramGet (ps : ParamStore) (n : Nat) : Int :=
  match ps with
  | [] => 0
  | (k, v) :: rest => if k = n then v else paramGet rest n

/-- The store with a new value for a number; every other value stands. -/
def paramSet (ps : ParamStore) (n : Nat) (v : Int) : ParamStore :=
  match ps with
  | [] => []
  | (k, x) :: rest => if k = n then (k, v) :: rest else (k, x) :: paramSet rest n v

/-- Every parameter at its Typ value. -/
def paramTyps : ParamStore := paramTable.map fun r => (r.number, r.typ)

/-- Check 4 of R181 for one parameter: every ordering that names it holds in the store. -/
def orderingsKept (ps : ParamStore) (n : Nat) : Bool :=
  (orderings.filter fun o => o.low == n || o.high == n).all fun o =>
    o.kind.holds (paramGet ps o.low) (paramGet ps o.high)

/-- The store holds one value for each parameter, each within its range, and every ordering holds. -/
def paramsWf (ps : ParamStore) : Bool :=
  ps.map (·.1) == paramTable.map (·.number)
    && (paramTable.all fun r => decide (r.min ≤ paramGet ps r.number ∧ paramGet ps r.number ≤ r.max))
    && (orderings.all fun o => o.kind.holds (paramGet ps o.low) (paramGet ps o.high))

end Sys2Proof.Machine
end

