-- ==== Sys2Proof/Machine/State.lean ====
section
/-! DEFINITION. The state of the block, all of it, as plain data, and its value after power-on reset. Times are values
of the 1 µs timebase; a timer is the time at which it runs out, or none while it is stopped. -/

namespace Sys2Proof.Machine

/-- The reasons the block stops with a fault. There is none: every command and every event of the FH-20 has an effect or
has none, and what the spec calls a trip or a fault is a state of the line, a channel or a door. Safe. -/
inductive Fault where
  deriving DecidableEq, Repr

/-- The reasons a command has no meaning in the model. -/
inductive Refusal where
  /-- Raised by exec for a row of the table that has no meaning yet; no row is left so. Safe. -/
  | notModelled (mnemonic : String)
  deriving DecidableEq, Repr

/-- A station entry of a geometry copy (R1). A side that is absent is NONE. -/
structure Station where
  berth : Nat
  exitSide : Option Side
  boardSide : Option Side
  alight : Nat
  board : Nat
  deriving DecidableEq, Repr

/-- A segment entry of a geometry copy (R1). -/
structure Segment where
  start : Nat
  gradient : Nat
  limit : Nat
  exposed : Bool
  deriving DecidableEq, Repr

/-- The header of a geometry copy (R1). -/
structure Header where
  trackLen : Nat
  count : Nat
  deriving DecidableEq, Repr

/-- A geometry copy (R1): a header or none, 4 station entries, 48 segment entries. -/
structure Geometry where
  header : Option Header
  stations : List (Option Station)
  segments : List (Option Segment)
  deriving DecidableEq, Repr

/-- An empty geometry copy (R1). -/
def Geometry.empty : Geometry := ⟨none, List.replicate 4 none, List.replicate 48 none⟩

/-- GEO: geometry and position (spec 01). -/
structure GeoState where
  active : Geometry
  staged : Geometry
  /-- car A's counted position in µm (R8) -/
  pA : Nat
  /-- the position state is REFERENCED (R8) -/
  referenced : Bool
  /-- car A's travel direction is uphill (R8) -/
  travelUp : Bool
  /-- the taken levels of the four datum inputs (R10) -/
  datum : List Bool
  inspection : Bool
  deriving DecidableEq, Repr

/-- The capture states of a speed channel (section 2.2). -/
inductive Capture where
  | standstill | starting | measuring
  deriving DecidableEq, Repr

/-- One speed channel (sections 2.1 and 2.2). -/
structure SpeedChannel where
  levelA : Bool
  levelB : Bool
  /-- time of the last taken edge of phase A, absent before the first (R19) -/
  edgeA : Option Nat
  edgeB : Option Nat
  capture : Capture
  lastEdge : Nat
  period : Option Nat
  speed : Nat
  forward : Bool
  standDue : Option Nat
  deriving DecidableEq, Repr

/-- The slip condition (R28). -/
inductive SlipCond where
  | absent | slip | disagree
  deriving DecidableEq, Repr

/-- SPD: speed channels (spec 02). -/
structure SpdState where
  rope : SpeedChannel
  drive : SpeedChannel
  vMeas : Nat
  /-- the line-at-rest flag: the time of its last setting while it is set (R26, R131) -/
  restSince : Option Nat
  restDue : Option Nat
  slipDue : Option Nat
  slipPositive : Bool
  slip : SlipCond
  rollback : Bool
  deriving DecidableEq, Repr

/-- A service time (spec 00). -/
structure ServiceTime where
  day : Nat
  minute : Nat
  deriving DecidableEq, Repr

/-- The directions of a restriction (R37). -/
inductive RestrictionDir where
  | up | down | both
  deriving DecidableEq, Repr

/-- A restriction table entry that is not FREE (R37). Its origin is fixed by its number. -/
structure Restriction where
  /-- IN FORCE, or PENDING -/
  inForce : Bool
  spanStart : Nat
  spanEnd : Nat
  limit : Nat
  dir : RestrictionDir
  fromTime : Option ServiceTime
  untilTime : Option ServiceTime
  label : Option Nat
  deriving DecidableEq, Repr

/-- A record of the ended list (R45). -/
structure EndedRecord where
  entry : Nat
  label : Option Nat
  time : ServiceTime
  deriving DecidableEq, Repr

/-- TSR: clock and restrictions (spec 03). -/
structure TsrState where
  clockSet : Bool
  day : Nat
  minute : Nat
  /-- when the sub-minute count reaches 60,000; none while it does not run (R32) -/
  minuteDue : Option Nat
  table : List (Option Restriction)
  ended : List EndedRecord
  overflow : Bool
  deriving DecidableEq, Repr

/-- One channel of the environment monitor (R49). -/
structure MonChannelState where
  raw : Nat
  value : Int
  valid : Bool
  fault : Bool
  /-- the channel's next sample -/
  due : Nat
  deriving DecidableEq, Repr

/-- The seven conditions (section 4.2). -/
inductive CondId where
  | w1 | w2 | frost | m1 | m2 | slack | overtension
  deriving DecidableEq, Repr

/-- One condition (R52). -/
structure Cond where
  raised : Bool
  raiseCount : Nat
  clearCount : Nat
  deriving DecidableEq, Repr

/-- MON: environment monitor (spec 04). -/
structure MonState where
  wind : MonChannelState
  tension : MonChannelState
  rail : MonChannelState
  motor : MonChannelState
  w1 : Cond
  w2 : Cond
  frost : Cond
  m1 : Cond
  m2 : Cond
  slack : Cond
  overtension : Cond
  deriving DecidableEq, Repr

/-- The line state with its RUNNING sub-phase (R63), in the order of its codes (spec 11). -/
inductive LineState where
  | parked | dwell | starting | moving | intervening | halted | tripped
  deriving DecidableEq, Repr

/-- The halt causes (R65), in the order of the table. -/
inductive HaltCause where
  | noCause | stopCommand | carLink | positionFault | overtension | notReferenced | startFailed | doors | offBerth
  deriving DecidableEq, Repr

/-- The state a start was made from (R70). -/
inductive Origin where
  | dwell | halted
  deriving DecidableEq, Repr

/-- The run record (R70). The descending car follows from the direction. -/
structure RunRecord where
  target : Nat
  speed : Nat
  /-- car A uphill -/
  up : Bool
  origin : Origin
  gMax : Nat
  aEff : Nat
  deriving DecidableEq, Repr

/-- HAUL: haul control (spec 05). -/
structure HaulState where
  line : LineState
  haltCause : HaltCause
  run : Option RunRecord
  /-- load figures, absent when unknown (R71) -/
  loadA : Option Nat
  loadB : Option Nat
  vPerm : Nat
  vSup : Nat
  vDem : Nat
  /-- the previous v_dem from which the next sample ramps (R86) -/
  rampFrom : Nat
  driveEnable : Bool
  driveDirHigh : Bool
  pwmDuty : Nat
  pwmDue : Nat
  /-- the level of the torque-ready input (R73) -/
  torqueReady : Bool
  torqueDue : Option Nat
  haulDue : Nat
  deriving DecidableEq, Repr

/-- The trip causes (R96), in the order of the table. -/
inductive TripCause where
  | overspeed | absOverspeed | slip | disagree | rollback | slackRope | overrun | doorOpen | doorMotion
  | driveFault | estop | commanded
  deriving DecidableEq, Repr

/-- OSB: overspeed and brakes (spec 06). -/
structure OsbState where
  t1 : Nat
  t2 : Nat
  /-- the absolute limit v_abs in effect, taken from parameter 0x74 at each publication of v_sup (R91, R110) -/
  vAbs : Nat
  interventions : Nat
  first : Option TripCause
  fromState : Option LineState
  vTrip : Nat
  /-- the further causes: bit (code − 1) for each (spec 11) -/
  further : BitVec 16
  /-- the track-brake hold -/
  hold : Bool
  resetDue : Option Nat
  resetElapsed : Bool
  safetyReleased : Bool
  serviceReleased : Bool
  estop : Bool
  driveFault : Bool
  deriving DecidableEq, Repr

/-- The states of a door side in a report (R115). -/
inductive DoorState where
  | opened | closing | closed | locked | fault
  deriving DecidableEq, Repr

/-- A car's last report (R115). -/
structure Report where
  left : DoorState
  right : DoorState
  echo : Byte
  trackBrake : Bool
  alarm : Bool
  loadValid : Bool
  unitFault : Bool
  load : Nat
  takenAt : Nat
  deriving DecidableEq, Repr

/-- The phases of a stop (R116). -/
inductive StopPhase where
  | arrived | alighting | boarding | closing | ready
  deriving DecidableEq, Repr

/-- A commanded close (R119): whether it awaits the exit side alone (R121) or both sides (R123), how many downlink
frames of the car have been built since it was commanded (counted to 4), and whether it is confirmed. -/
structure Close where
  exitOnly : Bool
  frames : Nat
  confirmed : Bool
  deriving DecidableEq, Repr

/-- A stop record (R116). Its car is the car that holds it. -/
structure StopRecord where
  station : Nat
  phase : StopPhase
  wOpen : Option Nat
  quota : Nat
  boarded : Nat
  held : Nat
  late : Nat
  alarm : Bool
  doorFault : Bool
  suspended : Bool
  phaseDue : Option Nat
  closeDue : Option Nat
  close : Option Close
  reopening : Bool
  deriving DecidableEq, Repr

/-- STP's state of one car (spec 07). -/
structure CarState where
  live : Bool
  linkDue : Option Nat
  downDue : Nat
  /-- the sequences of the last four downlink frames, newest first (R112) -/
  kept : List Byte
  /-- the last downlink frame sent; empty before the first -/
  lastFrame : List Byte
  report : Option Report
  record : Option StopRecord
  pendingAlarm : Bool
  admitted : Nat
  evacLeft : Bool
  evacRight : Bool
  deriving DecidableEq, Repr

/-- STP: stops and car doors (spec 07). -/
structure StpState where
  carA : CarState
  carB : CarState
  deriving DecidableEq, Repr

/-- The entitlement kinds (R138), in the order of their codes. -/
inductive EntKind where
  | single | multi | period | staff
  deriving DecidableEq, Repr

/-- Daily cap, rides today and ride day, the three together (R138). -/
structure DailyCap where
  cap : Nat
  today : Nat
  rideDay : Option Nat
  deriving DecidableEq, Repr

/-- A passback stamp (R138). -/
structure Stamp where
  station : Nat
  day : Nat
  minute : Nat
  deriving DecidableEq, Repr

/-- The claim field of a record (R138). -/
structure ClaimRef where
  gate : Nat
  id : Byte
  deriving DecidableEq, Repr

/-- An entitlement record (R138). -/
structure EntRecord where
  media : Media
  kind : EntKind
  blocked : Bool
  group : Nat
  rides : Option Nat
  validFrom : Option Nat
  validUntil : Option Nat
  /-- bit k: station k is allowed -/
  stations : Option (BitVec 4)
  daily : Option DailyCap
  stamp : Option Stamp
  claim : Option ClaimRef
  deriving DecidableEq, Repr

/-- The entitlement table (R136): the occupied slots, by slot number. -/
abbrev EntTable := List (Nat × EntRecord)

/-- ENT: entitlement table (spec 08). -/
structure EntState where
  table : EntTable
  deriving DecidableEq, Repr

/-- The boarding states of a station (R156), in the order of their codes (spec 11). -/
inductive Boarding where
  | opened | closed | suspended | outOfService
  deriving DecidableEq, Repr

/-- The reasons of a REFUSE (R164), in the order of their codes from 1 (spec 11). -/
inductive Reason where
  | closed | suspended | outOfService | unknown | blocked | inUse | noClock | notYet | expired
  | wrongStation | passback | noRides | dailyLimit | carFull
  deriving DecidableEq, Repr

/-- A reply to a gate (R159). -/
inductive Answer where
  | noAnswer
  | admission (id : Byte) (persons : Nat) (ridesLeft : Nat)
  | refuse (reason : Reason)
  | late (id : Byte)
  deriving DecidableEq, Repr

/-- A gate's health code (R162). -/
inductive Health where
  | normal | readerFault | mechanismFault | unreported
  deriving DecidableEq, Repr

/-- A lapsed-claim memory (R166). Its stop record is that of the car named, or absent. -/
structure Memory where
  id : Byte
  media : Media
  persons : Nat
  station : Nat
  record : Option Car
  deriving DecidableEq, Repr

/-- One gate (R155, R162, R163, R166). -/
structure Gate where
  station : Option Nat
  enabled : Bool
  online : Bool
  misses : Nat
  health : Health
  /-- the last taken toggle, absent for NONE -/
  toggle : Option Bool
  answer : Answer
  replyPending : Bool
  memory : Option Memory
  deriving DecidableEq, Repr

/-- An open claim (R165). -/
structure Claim where
  id : Byte
  gate : Nat
  /-- the car whose stop record it names -/
  car : Car
  slot : Nat
  media : Media
  persons : Nat
  due : Nat
  deriving DecidableEq, Repr

/-- ADM: gate admission (spec 09). -/
structure AdmState where
  /-- gate address k at index k − 1 -/
  gates : List Gate
  /-- the station boarding states as last derived (R156) -/
  boarding : List Boarding
  broadcastPending : Bool
  /-- the poll slot timer; none while a slot waits for the end of a response (R157) -/
  pollDue : Option Nat
  pollCount : Nat
  /-- the slot that runs carries a poll, so that the poll count rises after it (R158) -/
  slotPolls : Bool
  normalPtr : Nat
  urgentPtr : Nat
  /-- the gate whose response is awaited -/
  polled : Option Nat
  /-- the end of its response window -/
  windowDue : Option Nat
  claims : List Claim
  lastClaimId : Byte
  /-- the last frame the FH-20 drove on the bus; empty before the first -/
  lastFrame : List Byte
  deriving DecidableEq, Repr

/-- The result codes (R180), in the order of their values (spec 11). -/
inductive ResultCode where
  | ok | busy | frameError | invalid | badParameter | wrongState | refused | notFound | duplicate | tableFull
  | inUse | wrongOrigin | noClock | badGeometry
  deriving DecidableEq, Repr

/-- A result (R179). -/
structure Result where
  code : ResultCode
  answered : Byte
  data : List Byte
  deriving DecidableEq, Repr

/-- LNK: line link (spec 10). The command that executes stands in the queue `pending` (R178; log 4). -/
structure LnkState where
  /-- the result buffer (R179) -/
  buffer : Option Result
  /-- the attention set: bit k for cause k (spec 11) -/
  attention : BitVec 16
  deriving DecidableEq, Repr

/-- The state of the block. -/
structure State where
  /-- the 1 µs timebase, counted since the end of power-on reset -/
  now : Nat
  params : ParamStore
  geo : GeoState
  spd : SpdState
  tsr : TsrState
  mon : MonState
  haul : HaulState
  osb : OsbState
  stp : StpState
  ent : EntState
  adm : AdmState
  lnk : LnkState
  /-- the model's own: how many free choices of order have been made (log 6) -/
  choices : Nat
  /-- the commands that are waiting, first in first out -/
  pending : List Instr
  deriving DecidableEq, Repr

/-- A speed channel at power-on reset (R19, R24), its levels sampled low (log 5). -/
def SpeedChannel.powerOn : SpeedChannel :=
  { levelA := false, levelB := false, edgeA := none, edgeB := none, capture := .standstill, lastEdge := 0,
    period := none, speed := 0, forward := true, standDue := none }

/-- A monitor channel at power-on reset (R49). -/
def MonChannelState.powerOn : MonChannelState :=
  { raw := 0, value := 0, valid := false, fault := false, due := 100000 }

/-- A condition at power-on reset (R52). -/
def Cond.powerOn : Cond := { raised := false, raiseCount := 0, clearCount := 0 }

/-- A car at power-on reset (R135): its first downlink frame is sent at the end of reset. -/
def CarState.powerOn : CarState :=
  { live := false, linkDue := none, downDue := 0, kept := [], lastFrame := [], report := none, record := none,
    pendingAlarm := false, admitted := 0, evacLeft := false, evacRight := false }

/-- A gate at power-on reset (R174). -/
def Gate.powerOn : Gate :=
  { station := none, enabled := false, online := false, misses := 0, health := .unreported, toggle := none,
    answer := .noAnswer, replyPending := false, memory := none }

/-- The block right after power-on reset, every input level being inactive or low (log 5). -/
def State.reset : State :=
  { now := 0
    params := paramTyps
    geo :=
      { active := Geometry.empty, staged := Geometry.empty, pA := 0, referenced := false, travelUp := true,
        datum := [false, false, false, false], inspection := false }
    spd :=
      { rope := SpeedChannel.powerOn, drive := SpeedChannel.powerOn, vMeas := 0, restSince := none,
        restDue := some 2000000, slipDue := none, slipPositive := false, slip := .absent, rollback := false }
    tsr :=
      { clockSet := false, day := 0, minute := 0, minuteDue := none, table := List.replicate 32 none, ended := [],
        overflow := false }
    mon :=
      { wind := MonChannelState.powerOn, tension := MonChannelState.powerOn, rail := MonChannelState.powerOn,
        motor := MonChannelState.powerOn, w1 := Cond.powerOn, w2 := Cond.powerOn, frost := Cond.powerOn,
        m1 := Cond.powerOn, m2 := Cond.powerOn, slack := Cond.powerOn, overtension := Cond.powerOn }
    haul :=
      { line := .parked, haltCause := .noCause, run := none, loadA := none, loadB := none, vPerm := 0, vSup := 0,
        vDem := 0, rampFrom := 0, driveEnable := false, driveDirHigh := true, pwmDuty := 0, pwmDue := 1000,
        torqueReady := false, torqueDue := none, haulDue := 10000 }
    osb :=
      { t1 := 150, t2 := 400, vAbs := 11500, interventions := 0, first := none, fromState := none, vTrip := 0, further := 0,
        hold := true, resetDue := none, resetElapsed := false, safetyReleased := false, serviceReleased := false,
        estop := false, driveFault := false }
    stp := { carA := CarState.powerOn, carB := CarState.powerOn }
    ent := { table := [] }
    adm :=
      { gates := List.replicate 16 Gate.powerOn, boarding := List.replicate 4 .outOfService,
        broadcastPending := true, pollDue := some 10000, pollCount := 0, slotPolls := false, normalPtr := 0, urgentPtr := 0,
        polled := none, windowDue := none, claims := [], lastClaimId := 0, lastFrame := [] }
    lnk := { buffer := none, attention := 1 }
    choices := 0
    pending := [] }

end Sys2Proof.Machine
end

