-- ==== Sys2Proof/Machine/Operands.lean ====
section
/-! DEFINITION. The operand forms: the codes of every named value, the operand bytes of commands, the transfer records
and the results (spec 11). -/

namespace Sys2Proof.Machine

/-- The car a code names: 0 A, 1 B (R190). -/
def carOf (x : Byte) : Option Car :=
  if x = 0 then some .a else if x = 1 then some .b else none

/-- A car's code (R190). -/
def carCode : Car → Nat
  | .a => 0
  | .b => 1

/-- The door side a code names: 1 LEFT, 2 RIGHT (R190). -/
def sideOf (x : Byte) : Option Side :=
  if x = 1 then some .left else if x = 2 then some .right else none

/-- The side code of a station field: 0 NONE, 1 LEFT, 2 RIGHT (R190). -/
def sideCode : Option Side → Nat
  | none => 0
  | some .left => 1
  | some .right => 2

/-- Line state codes (spec 11). -/
def lineCode : LineState → Nat
  | .parked => 0
  | .dwell => 1
  | .starting => 2
  | .moving => 3
  | .intervening => 4
  | .halted => 5
  | .tripped => 6

/-- Halt causes in the order of the table of R65 (spec 11). -/
def haltCode : HaltCause → Nat
  | .noCause => 0
  | .stopCommand => 1
  | .carLink => 2
  | .positionFault => 3
  | .overtension => 4
  | .notReferenced => 5
  | .startFailed => 6
  | .doors => 7
  | .offBerth => 8

/-- Trip cause codes (spec 11). -/
def causeCode : TripCause → Nat
  | .overspeed => 1
  | .absOverspeed => 2
  | .slip => 3
  | .disagree => 4
  | .rollback => 5
  | .slackRope => 6
  | .overrun => 7
  | .doorOpen => 8
  | .doorMotion => 9
  | .driveFault => 10
  | .estop => 11
  | .commanded => 12

/-- The trip causes in the order of the table of R96. -/
def allCauses : List TripCause :=
  [.overspeed, .absOverspeed, .slip, .disagree, .rollback, .slackRope, .overrun, .doorOpen, .doorMotion,
    .driveFault, .estop, .commanded]

/-- The track-brake causes (R96, R104). -/
def TripCause.trackBrake : TripCause → Bool
  | .absOverspeed => true
  | .slip => true
  | .rollback => true
  | .slackRope => true
  | _ => false

/-- The further-causes set with a cause added: bit (code − 1) (spec 11). -/
def causeInsert (m : BitVec 16) (c : TripCause) : BitVec 16 := m ||| (1#16 <<< (causeCode c - 1))

/-- Whether a cause is a member of the further-causes set. -/
def causeIn (m : BitVec 16) (c : TripCause) : Bool := m.getLsbD (causeCode c - 1)

/-- Capture state codes (spec 11, byte 15 of the line status record). -/
def captureCode : Capture → Nat
  | .standstill => 0
  | .starting => 1
  | .measuring => 2

/-- Slip condition codes (spec 11, byte 31). -/
def slipCode : SlipCond → Nat
  | .absent => 0
  | .slip => 1
  | .disagree => 2

/-- Stop phase codes (spec 11). -/
def phaseCode : StopPhase → Nat
  | .arrived => 0
  | .alighting => 1
  | .boarding => 2
  | .closing => 3
  | .ready => 4

/-- Door state codes of an uplink (spec 11, section 11.6). -/
def doorCode : DoorState → Nat
  | .opened => 0
  | .closing => 1
  | .closed => 2
  | .locked => 3
  | .fault => 4

/-- The door state a code names; 5 to 15 are taken as FAULT (R193). -/
def doorOf (n : Nat) : DoorState :=
  match n with
  | 0 => .opened
  | 1 => .closing
  | 2 => .closed
  | 3 => .locked
  | _ => .fault

/-- Boarding state codes (spec 11, section 11.5). -/
def boardingCode : Boarding → Nat
  | .opened => 0
  | .closed => 1
  | .suspended => 2
  | .outOfService => 3

/-- REFUSE reason codes (spec 11, section 11.5). -/
def reasonCode : Reason → Nat
  | .closed => 1
  | .suspended => 2
  | .outOfService => 3
  | .unknown => 4
  | .blocked => 5
  | .inUse => 6
  | .noClock => 7
  | .notYet => 8
  | .expired => 9
  | .wrongStation => 10
  | .passback => 11
  | .noRides => 12
  | .dailyLimit => 13
  | .carFull => 14

/-- Health codes in the order of R162: NORMAL, READER FAULT, MECHANISM FAULT, NONE (R189; log 15). -/
def healthCode : Health → Nat
  | .normal => 0
  | .readerFault => 1
  | .mechanismFault => 2
  | .unreported => 3

/-- The health a response carries; 3 is taken as MECHANISM FAULT (R192). -/
def healthOf (n : Nat) : Health :=
  match n with
  | 0 => .normal
  | 1 => .readerFault
  | _ => .mechanismFault

/-- The taken echo of a poll and the toggle of a gate's status: 0 NONE, 1 toggle 0, 2 toggle 1 (section 11.5). -/
def toggleCode : Option Bool → Nat
  | none => 0
  | some false => 1
  | some true => 2

/-- Kind codes of entitlements (section 11.3). -/
def entKindCode : EntKind → Nat
  | .single => 0
  | .multi => 1
  | .period => 2
  | .staff => 3

/-- The kind a code names. -/
def entKindOf (x : BitVec 2) : EntKind :=
  if x = 0 then .single else if x = 1 then .multi else if x = 2 then .period else .staff

/-- Result codes (spec 11). -/
def resultCodeValue : ResultCode → Nat
  | .ok => 0
  | .busy => 1
  | .frameError => 2
  | .invalid => 3
  | .badParameter => 4
  | .wrongState => 5
  | .refused => 6
  | .notFound => 7
  | .duplicate => 8
  | .tableFull => 9
  | .inUse => 10
  | .wrongOrigin => 11
  | .noClock => 12
  | .badGeometry => 13

/-- The conditions carried with REFUSED (R180). -/
inductive Condition where
  | notAtRest | datum | estop | driveFault | slack | doors | noStation | sameStation | notReady | carLink
  | wind | motor | tension | alarm | noTarget | causePresent | restTime | trackBrake
  | cause (c : TripCause)
  deriving DecidableEq, Repr

/-- Condition codes (spec 11). -/
def conditionCode : Condition → Nat
  | .notAtRest => 0x01
  | .datum => 0x02
  | .estop => 0x03
  | .driveFault => 0x04
  | .slack => 0x05
  | .doors => 0x06
  | .noStation => 0x07
  | .sameStation => 0x08
  | .notReady => 0x09
  | .carLink => 0x0A
  | .wind => 0x0B
  | .motor => 0x0C
  | .tension => 0x0D
  | .alarm => 0x0E
  | .noTarget => 0x0F
  | .causePresent => 0x10
  | .restTime => 0x11
  | .trackBrake => 0x12
  | .cause c => 0x40 + causeCode c

/-- The attention causes (section 10.5). -/
inductive Attention where
  | powerOn | softReset | lineState | trip | intervention | positionFault | stopPhase | doorFault
  | passengerAlarm | monitor | restrictionEnded | gate | carLink
  deriving DecidableEq, Repr

/-- The bit of an attention cause (spec 11). -/
def attentionBit : Attention → Nat
  | .powerOn => 0
  | .softReset => 1
  | .lineState => 2
  | .trip => 3
  | .intervention => 4
  | .positionFault => 5
  | .stopPhase => 6
  | .doorFault => 7
  | .passengerAlarm => 8
  | .monitor => 9
  | .restrictionEnded => 10
  | .gate => 11
  | .carLink => 12

/-- The attention mask of one cause. -/
def attentionMask (c : Attention) : BitVec 16 := 1#16 <<< attentionBit c

/-- An optional number: a presence byte and the number, zero when absent (R189). -/
def optBytes (width : Nat) : Option Nat → List Byte
  | some v => 1 :: beBytes width v
  | none => 0 :: beBytes width 0

/-- A service time: day and minute (R189), zero when absent. -/
def timeBytes : Option ServiceTime → List Byte
  | some t => be2 t.day ++ be2 t.minute
  | none => be2 0 ++ be2 0

/-- Direction codes of a restriction (section 11.4). -/
def restrictionDirCode : RestrictionDir → Nat
  | .up => 0
  | .down => 1
  | .both => 2

/-- The direction a code names. -/
def restrictionDirOf (x : Byte) : Option RestrictionDir :=
  if x = 0 then some .up else if x = 1 then some .down else if x = 2 then some .both else none

/-- The origin code of an entry number: 0 LINE, 1 WIND, 2 FROST (R36, section 11.4). -/
def originCode (n : Nat) : Nat :=
  if n ≤ 4 then 1 else if n = 5 then 2 else 0

/-- The restriction transfer record of an entry: 25 bytes, or bytes 0 to 2 alone when FREE (section 11.4). -/
def restrictionBytes (n : Nat) : Option Restriction → List Byte
  | none => be1 n ++ be1 0 ++ be1 (originCode n)
  | some r =>
    be1 n ++ be1 (if r.inForce then 2 else 1) ++ be1 (originCode n)
      ++ be1 (bits [r.fromTime.isSome, r.untilTime.isSome, r.label.isSome])
      ++ be4 r.spanStart ++ be4 r.spanEnd ++ be2 r.limit ++ be1 (restrictionDirCode r.dir)
      ++ timeBytes r.fromTime ++ timeBytes r.untilTime ++ be2 (r.label.getD 0)

/-- A record of the ended list in 8 bytes (section 11.4). -/
def endedBytes (r : EndedRecord) : List Byte :=
  be1 r.entry ++ optBytes 2 r.label ++ be2 r.time.day ++ be2 r.time.minute

/-- The transfer record of a table record (section 11.3, R191): every absent field zero with its presence bit clear. -/
def entRecordTransfer (r : EntRecord) : EntTransfer :=
  { media := r.media
    topBit := false
    group := BitVec.ofNat 4 r.group
    blocked := r.blocked
    kind := BitVec.ofNat 2 (entKindCode r.kind)
    presence := BitVec.ofNat 8 (bits [r.rides.isSome || r.validFrom.isSome, r.validUntil.isSome, r.stations.isSome,
      r.daily.isSome, (r.daily.bind (·.rideDay)).isSome, r.stamp.isSome, r.claim.isSome])
    fieldA := match r.rides with
      | some n => BitVec.ofNat 16 (n * 256)
      | none => BitVec.ofNat 16 (r.validFrom.getD 0)
    untilDay := BitVec.ofNat 16 (r.validUntil.getD 0)
    cap := BitVec.ofNat 4 ((r.daily.map (·.cap)).getD 0)
    stations := r.stations.getD 0
    spare := 0
    stampStation := BitVec.ofNat 2 ((r.stamp.map (·.station)).getD 0)
    ridesToday := BitVec.ofNat 4 ((r.daily.map (·.today)).getD 0)
    rideDay := BitVec.ofNat 16 ((r.daily.bind (·.rideDay)).getD 0)
    stampDay := BitVec.ofNat 16 ((r.stamp.map (·.day)).getD 0)
    stampMinute := BitVec.ofNat 11 ((r.stamp.map (·.minute)).getD 0)
    claimGate := BitVec.ofNat 5 ((r.claim.map (·.gate)).getD 0)
    claimId := (r.claim.map (·.id)).getD 0 }

/-- The 20 bytes of a table record (section 11.3). -/
def entRecordBytes (r : EntRecord) : List Byte := entTransferBytes (entRecordTransfer r)

/-- Presence bits of the entitlement transfer record (section 11.3, byte 6). -/
def EntTransfer.has (t : EntTransfer) (k : Nat) : Bool := t.presence.getLsbD k

/-- The checks of R141 and R191 on a received transfer record. -/
def entTransferGood (t : EntTransfer) : Bool :=
  let kind := entKindOf t.kind
  let group := t.group.toNat
  t.media != 0
    && !t.topBit && !EntTransfer.has t 7
    && decide (1 ≤ group ∧ group ≤ 9)
    && ((kind != .period && kind != .staff) || group == 1)
    && (match kind with
        | .multi => EntTransfer.has t 0 && t.fieldA.extractLsb' 0 8 == 0
        | .period => EntTransfer.has t 0
        | _ => !EntTransfer.has t 0)
    && (match kind with
        | .staff => !EntTransfer.has t 1
        | .period => EntTransfer.has t 1 && decide (t.fieldA.toNat ≤ t.untilDay.toNat)
        | _ => true)
    && (!EntTransfer.has t 2 || t.stations != 0)
    && (!EntTransfer.has t 3 || (kind == .period && t.cap != 0 && t.ridesToday == 0))
    && !EntTransfer.has t 4 && !EntTransfer.has t 5 && !EntTransfer.has t 6

/-- The record placed by ADD ENTITLEMENT (R142). -/
def entOfTransfer (t : EntTransfer) : EntRecord :=
  let kind := entKindOf t.kind
  { media := t.media
    kind := kind
    blocked := t.blocked
    group := t.group.toNat
    rides := if kind = .multi then some (t.fieldA.extractLsb' 8 8).toNat else none
    validFrom := if kind = .period then some t.fieldA.toNat else none
    validUntil := if EntTransfer.has t 1 then some t.untilDay.toNat else none
    stations := if EntTransfer.has t 2 then some t.stations else none
    daily := if EntTransfer.has t 3 then some ⟨t.cap.toNat, 0, none⟩ else none
    stamp := none
    claim := none }

/-- A reply in a poll frame: its kind and three bytes (section 11.5). -/
def answerBytes : Answer → List Byte
  | .noAnswer => [0, 0, 0, 0]
  | .admission id persons left => 1 :: id :: (be1 persons ++ be1 left)
  | .refuse r => 2 :: (be1 (reasonCode r) ++ [0, 0])
  | .late id => [3, id, 0, 0]

/-- A geometry station item in the layout of its write, after the empty marker (R190). -/
def stationBytes (x : Station) : List Byte :=
  be4 x.berth ++ be1 (sideCode x.exitSide) ++ be1 (sideCode x.boardSide) ++ be1 x.alight ++ be2 x.board

/-- A geometry segment item in the layout of its write, after the empty marker (R190). -/
def segmentBytes (x : Segment) : List Byte :=
  be4 x.start ++ be2 x.gradient ++ be2 x.limit ++ flag1 x.exposed

/-- What a gate reports (R163, section 11.5). -/
inductive GateMessage where
  | noMessage
  | present (media : Media)
  | passed (id : Byte) (persons : Nat)
  | abandoned (id : Byte)
  deriving DecidableEq, Repr

/-- A good response: toggle, health, message. -/
structure GateFrame where
  toggle : Bool
  health : Health
  message : GateMessage
  deriving DecidableEq, Repr

/-- The message of a response's kind code and its bytes between head and CRC; none where the kind is unknown or the
length is another (R192). A PASSED of more than 9 persons is taken as 9. -/
def gateMessageOf (kind : Nat) (body : List Byte) : Option GateMessage :=
  match kind, body with
  | 0, [] => some .noMessage
  | 1, [a, b, c, d, e] => some (.present (word5 a b c d e))
  | 2, [id, n] => some (.passed id (min n.toNat 9))
  | 3, [id] => some (.abandoned id)
  | _, _ => none

/-- The good response in the bytes received from the polled gate, or none for a miss (R154, R161, R192). -/
def gateFrameOf (gate : Nat) (charsOk : Bool) (frame : List Byte) : Option GateFrame :=
  match frame with
  | addr :: head :: rest =>
    if charsOk && crcGood frame && decide (2 ≤ rest.length) && addr.toNat == gate then
      (gateMessageOf (head.extractLsb' 1 3).toNat (rest.take (rest.length - 2))).map fun m =>
        { toggle := head.getLsbD 0, health := healthOf (head.extractLsb' 6 2).toNat, message := m }
    else none
  | _ => none

/-- The report in the bytes of an uplink that is valid on this car's link, or none: parity and stop bits, length 8, CRC,
car id and echoed sequence (R113, R193). -/
def reportOf (car : Car) (kept : List Byte) (now : Nat) (charsOk : Bool) (frame : List Byte) : Option Report :=
  match frame with
  | [id, echo, doors, flags, l0, l1, _, _] =>
    if charsOk && crcGood frame && id.toNat == carCode car + 1 && kept.contains echo then
      some
        { left := doorOf (doors.extractLsb' 0 4).toNat
          right := doorOf (doors.extractLsb' 4 4).toNat
          echo := echo
          trackBrake := flags.getLsbD 0
          alarm := flags.getLsbD 1
          loadValid := flags.getLsbD 2
          unitFault := flags.getLsbD 3
          load := (word2 l0 l1).toNat
          takenAt := now }
    else none
  | _ => none

end Sys2Proof.Machine
end

