-- ==== Sys2Proof/Machine/Flags.lean ====
section
/-! DEFINITION. What the block derives from its state without changing it: parameters, the answers of the active geometry
(R4), positions, speeds, conditions, releases, boarding states. -/

namespace Sys2Proof.Machine

/-- The value of a parameter that is never negative. -/
def State.par (s : State) (n : Nat) : Nat := (paramGet s.params n).toNat

/-- Milliseconds in µs. -/
def ms (n : Nat) : Nat := n * 1000

/-- A time in µs as whole ms, rounded down (log 40). -/
def wholeMs (t : Nat) : Nat := t / 1000

/-- Seconds in µs. -/
def sec (n : Nat) : Nat := n * 1000000

/-- Berth window w (0x10). -/
def State.window (s : State) : Nat := s.par 0x10
/-- Car half-length h (0x11). -/
def State.halfLen (s : State) : Nat := s.par 0x11
/-- Datum half-width D (0x12). -/
def State.datumHalf (s : State) : Nat := s.par 0x12
/-- Correction window (0x13). -/
def State.corrWindow (s : State) : Nat := s.par 0x13
/-- Creep speed v_creep (0x65). -/
def State.creep (s : State) : Nat := s.par 0x65
/-- Car capacity C (0x6A). -/
def State.capacity (s : State) : Nat := s.par 0x6A

/-- The other car. -/
def otherCar : Car → Car
  | .a => .b
  | .b => .a

/-- STP's state of a car. -/
def State.car (s : State) : Car → CarState
  | .a => s.stp.carA
  | .b => s.stp.carB

/-- The stop record of a car. -/
def State.record (s : State) (c : Car) : Option StopRecord := (s.car c).record

/-! ### The active geometry (R4) -/

/-- Track length L of a geometry copy, 0 without a header. -/
def Geometry.len (g : Geometry) : Nat :=
  match g.header with
  | some h => h.trackLen
  | none => 0

/-- The stations in use (R4). -/
def Geometry.inUse (g : Geometry) : List Nat :=
  match g.header with
  | some h => if h.count = 2 then [0, 3] else if h.count = 4 then [0, 1, 2, 3] else []
  | none => []

/-- A station entry. -/
def Geometry.station (g : Geometry) (k : Nat) : Option Station := g.stations.getD k none

/-- The berth of a station. -/
def Geometry.berth (g : Geometry) (k : Nat) : Nat :=
  match g.station k with
  | some x => x.berth
  | none => 0

/-- The present segments in index order. -/
def Geometry.present (g : Geometry) : List Segment := g.segments.filterMap id

/-- A segment with its extent (R1). -/
structure Extent where
  seg : Segment
  lo : Nat
  hi : Nat
  deriving DecidableEq, Repr

/-- The extents of segments: from each start to the next start, or to L for the last (R1). -/
def extentsOf (len : Nat) : List Segment → List Extent
  | [] => []
  | [x] => [⟨x, x.start, len⟩]
  | x :: y :: rest => ⟨x, x.start, y.start⟩ :: extentsOf len (y :: rest)

/-- The extents of the present segments. -/
def Geometry.extents (g : Geometry) : List Extent := extentsOf g.len g.present

/-- A position brought into [0, L] (R4; log 10). -/
def clipPos (len : Nat) (x : Int) : Int := max 0 (min x len)

/-- The segments under an interval clipped to [0, L], one that touches it at a point included (R4). -/
def Geometry.under (g : Geometry) (lo hi : Int) : List Segment :=
  (g.extents.filter fun e => decide ((e.lo : Int) ≤ clipPos g.len hi ∧ clipPos g.len lo ≤ (e.hi : Int))).map (·.seg)

/-- The segment at a position: the present segment with the greatest start not above it (R4). -/
def Geometry.segmentAt (g : Geometry) (x : Int) : Option Segment :=
  (g.present.filter fun y => decide ((y.start : Int) ≤ clipPos g.len x)).getLast?

/-- The exposed runs: the spans of the maximal sequences of consecutive exposed segments, in order (R4). -/
def exposedRunsOf : List Extent → List (Nat × Nat)
  | [] => []
  | e :: rest =>
    if e.seg.exposed then
      match rest, exposedRunsOf rest with
      | f :: _, (lo, hi) :: runs => if f.seg.exposed then (e.lo, hi) :: runs else (e.lo, e.hi) :: (lo, hi) :: runs
      | _, runs => (e.lo, e.hi) :: runs
    else exposedRunsOf rest

/-- The exposed runs of a geometry copy (R4). -/
def Geometry.exposedRuns (g : Geometry) : List (Nat × Nat) := exposedRunsOf g.extents

/-- An active geometry exists (R1). -/
def State.hasGeometry (s : State) : Bool := s.geo.active.header.isSome

/-- Track length L of the active geometry. -/
def State.len (s : State) : Nat := s.geo.active.len

/-- The station is in use in the active geometry. -/
def State.inUse (s : State) (k : Nat) : Bool := s.geo.active.inUse.contains k

/-- The berth of a station of the active geometry. -/
def State.berth (s : State) (k : Nat) : Nat := s.geo.active.berth k

/-! ### Positions (R4, R8) -/

/-- pA in mm: the micrometre count truncated (R8). -/
def State.posA (s : State) : Int := ((s.geo.pA / 1000 : Nat) : Int)

/-- pB in mm: L − pA (R8). -/
def State.posB (s : State) : Int := (s.len : Int) - s.posA

/-- A car's position in mm. -/
def State.pos (s : State) : Car → Int
  | .a => s.posA
  | .b => s.posB

/-- The car stands within the berth window of a station (R4). -/
def State.berthed (s : State) (c : Car) (k : Nat) : Bool :=
  s.geo.referenced && decide ((s.pos c - (s.berth k : Int)).natAbs ≤ s.window)

/-- Car A's current station (R4); the lowest index where two windows hold the car (log 11). -/
def State.current (s : State) : Option Nat :=
  s.geo.active.inUse.find? fun k => s.berthed .a k

/-- The car's recorded travel direction is uphill (R8). -/
def State.carUp (s : State) : Car → Bool
  | .a => s.geo.travelUp
  | .b => !s.geo.travelUp

/-- The car's direction in a run record is uphill (R70). -/
def RunRecord.carUp (r : RunRecord) : Car → Bool
  | .a => r.up
  | .b => !r.up

/-- The descending car of a run: A downhill, B uphill (R70). -/
def RunRecord.descending (r : RunRecord) : Car := if r.up then .b else .a

/-- The stop of a car in a run: the target berth for car A, L less that berth for car B (R70, R82). -/
def State.stopOf (s : State) (target : Nat) : Car → Int
  | .a => s.berth target
  | .b => (s.len : Int) - s.berth target

/-! ### The line, the channels and the clock -/

/-- RUNNING, in any sub-phase (R63). -/
def LineState.running : LineState → Bool
  | .starting => true
  | .moving => true
  | .intervening => true
  | _ => false

/-- The line is RUNNING. -/
def State.running (s : State) : Bool := s.haul.line.running

/-- The line is at rest (R26). -/
def State.atRest (s : State) : Bool := s.spd.restSince.isSome

/-- A channel's state. -/
def State.chan (s : State) : Channel → SpeedChannel
  | .rope => s.spd.rope
  | .drive => s.spd.drive

/-- A service time as one count: day × 1,440 + minute (section 3.1). -/
def ServiceTime.count (t : ServiceTime) : Nat := t.day * 1440 + t.minute

/-- The clock's time. -/
def State.time (s : State) : ServiceTime := ⟨s.tsr.day, s.tsr.minute⟩

/-- A time is due when its count is not above the clock's (section 3.1). -/
def State.due (s : State) (t : ServiceTime) : Bool := t.count ≤ s.time.count

/-- The sub-minute count in ms (R32): 0 while it does not run. -/
def State.subMinute (s : State) : Nat :=
  match s.tsr.minuteDue with
  | some d => (60000000 - (d - s.now)) / 1000
  | none => 0

/-- A monitor channel. -/
def MonState.channel (m : MonState) : MonChannel → MonChannelState
  | .wind => m.wind
  | .tension => m.tension
  | .rail => m.rail
  | .motor => m.motor

/-- A condition. -/
def MonState.cond (m : MonState) : CondId → Cond
  | .w1 => m.w1
  | .w2 => m.w2
  | .frost => m.frost
  | .m1 => m.m1
  | .m2 => m.m2
  | .slack => m.slack
  | .overtension => m.overtension

/-! ### Doors, links and releases -/

/-- A door side was last reported LOCKED; a side never reported counts as not (R115). -/
def CarState.sideLocked (c : CarState) (d : Side) : Bool :=
  match c.report with
  | some r => (match d with | .left => r.left | .right => r.right) == .locked
  | none => false

/-- Both sides of a car were last reported LOCKED. -/
def CarState.locked (c : CarState) : Bool := c.sideLocked .left && c.sideLocked .right

/-- Every door side of both cars was last reported LOCKED. -/
def State.allLocked (s : State) : Bool := s.stp.carA.locked && s.stp.carB.locked

/-- A car's door reports are fresh (R115). -/
def State.fresh (s : State) (c : Car) : Bool :=
  match (s.car c).report with
  | some r => decide (s.now - r.takenAt < ms (s.par 0x81))
  | none => false

/-- Both car links are LIVE. -/
def State.linksLive (s : State) : Bool := s.stp.carA.live && s.stp.carB.live

/-- A station has a separate exit side (R120). -/
def Station.separateExit (x : Station) : Option Side :=
  match x.exitSide with
  | some d => if x.boardSide = some d then none else some d
  | none => none

/-- The side a record's phase calls for (section 7.3). No side is called in inspection mode (R120). -/
def State.calledSide (s : State) (r : StopRecord) : Option Side :=
  if s.geo.inspection then none else
  match s.geo.active.station r.station with
  | none => none
  | some x =>
    match r.phase with
    | .alighting => if r.close.isNone then x.separateExit else none
    | .boarding => x.boardSide
    | .closing => if r.reopening then x.boardSide else none
    | .arrived => none
    | .ready => none

/-- The evacuation release of a side (R131). -/
def CarState.evac (c : CarState) : Side → Bool
  | .left => c.evacLeft
  | .right => c.evacRight

/-- The normal release of a side (R126). -/
def State.normalRelease (s : State) (c : Car) (d : Side) : Bool :=
  match s.record c with
  | some r =>
    s.calledSide r == some d && s.berthed c r.station && s.atRest
      && (s.haul.line == .dwell || s.haul.line == .tripped) && (s.car c).live
  | none => false

/-- A side of a car is released (R126). -/
def State.released (s : State) (c : Car) (d : Side) : Bool := s.normalRelease c d || (s.car c).evac d

/-- Some door release is in force, evacuation releases included (R99). -/
def State.anyRelease (s : State) : Bool :=
  s.released .a .left || s.released .a .right || s.released .b .left || s.released .b .right

/-- The berthed conditions of a car (R120). -/
def State.berthedConditions (s : State) (c : Car) (r : StopRecord) : Bool :=
  s.berthed c r.station && s.atRest && s.haul.line == .dwell && (s.car c).live

/-- A stop record of either car carries its alarm flag. -/
def State.alarmHold (s : State) : Bool :=
  ((s.record .a).map (·.alarm)).getD false || ((s.record .b).map (·.alarm)).getD false

/-- The departure holds present, in the order WIND, MOTOR, TENSION, ALARM (R68). -/
def State.holds (s : State) : List Condition :=
  (if s.mon.w2.raised then [.wind] else []) ++ (if s.mon.m2.raised then [.motor] else [])
    ++ (if s.mon.overtension.raised then [.tension] else []) ++ (if s.alarmHold then [.alarm] else [])

/-- A car's stop record is in a phase. -/
def State.inPhase (s : State) (c : Car) (p : StopPhase) : Bool :=
  match s.record c with
  | some r => r.phase == p
  | none => false

/-- Stop records are present. -/
def State.hasRecords (s : State) : Bool := (s.record .a).isSome || (s.record .b).isSome

/-! ### Haul -/

/-- Integer square root rounded down (R84), by bits from 2^k down. -/
def isqrtFrom (n : Nat) : Nat → Nat → Nat
  | 0, acc => acc
  | k + 1, acc =>
    let t := acc + 2 ^ k
    isqrtFrom n k (if t * t ≤ n then t else acc)

/-- isqrt of a number below 2^40 (R84). -/
def isqrt (n : Nat) : Nat := isqrtFrom n 20 0

/-- The load of the descending car less that of the ascending car, as R71 takes them, or 0 (R72). -/
def State.imbalance (s : State) (descending : Car) : Nat :=
  match descending with
  | .a => s.haul.loadA.getD s.capacity - s.haul.loadB.getD 0
  | .b => s.haul.loadB.getD s.capacity - s.haul.loadA.getD 0

/-- The greatest gradient of a list of segments. -/
def maxGradient (l : List Segment) : Nat := l.foldr (fun x acc => max x.gradient acc) 0

/-- g_max: the largest gradient under the span the descending car will sweep (R70). -/
def State.gMax (s : State) (descending : Car) (target : Nat) : Nat :=
  let p := s.pos descending
  let q := s.stopOf target descending
  maxGradient (s.geo.active.under (min p q - s.halfLen) (max p q + s.halfLen))

/-- The load penalty of R72. -/
def State.penalty (s : State) (descending : Car) (g : Nat) : Nat := s.imbalance descending * s.par 0x62 * g / 10000

/-- a_eff: a_nom less the penalty, held at or above a_floor (R72). -/
def State.aEff (s : State) (descending : Car) (g : Nat) : Nat := max (s.par 0x61) (s.par 0x60 - s.penalty descending g)

/-- The run record of a start to a target from the present position (R70). -/
def State.newRun (s : State) (target speed : Nat) (origin : Origin) : RunRecord :=
  let up := decide (s.posA ≤ (s.berth target : Int))
  let descending : Car := if up then .b else .a
  let g := s.gMax descending target
  { target := target, speed := speed, up := up, origin := origin, gMax := g, aEff := s.aEff descending g }

/-- The deceleration by which v_sup falls: the run's, or a_nom (R72, R85). -/
def State.fallRate (s : State) : Nat :=
  match s.haul.run with
  | some r => r.aEff
  | none => s.par 0x60

/-- A restriction admits a car going uphill or downhill (R38). -/
def RestrictionDir.admits (d : RestrictionDir) (up : Bool) : Bool :=
  match d with
  | .both => true
  | .up => up
  | .down => !up

/-- The IN FORCE entries of the restriction table. -/
def State.inForce (s : State) : List Restriction :=
  (s.tsr.table.filterMap id).filter (·.inForce)

/-- A restriction applies to a car (R38). -/
def State.applies (s : State) (c : Car) (x : Restriction) : Bool :=
  x.inForce
    && decide ((x.spanStart : Int) ≤ s.pos c + s.halfLen ∧ s.pos c - s.halfLen ≤ (x.spanEnd : Int))
    && (x.dir.admits (s.carUp c)
        || (s.running && ((s.haul.run.map fun r => x.dir.admits (r.carUp c)).getD false)))

/-- The limits of the segments under a car (R81). -/
def State.segmentTerms (s : State) (c : Car) : List Nat :=
  (s.geo.active.under (s.pos c - s.halfLen) (s.pos c + s.halfLen)).map (·.limit)

/-- The limits of the restrictions that apply to a car (R81). -/
def State.restrictionTerms (s : State) (c : Car) : List Nat :=
  (s.inForce.filter (s.applies c)).map (·.limit)

/-- A car's leading end in its run direction (R82). -/
def State.lead (s : State) (r : RunRecord) (c : Car) : Int :=
  if r.carUp c then s.pos c + s.halfLen else s.pos c - s.halfLen

/-- Where a car's leading end will be at its stop (R82). -/
def State.leadStop (s : State) (r : RunRecord) (c : Car) : Int :=
  if r.carUp c then s.stopOf r.target c + s.halfLen else s.stopOf r.target c - s.halfLen

/-- A point lies in a car's approach: beyond its leading end, and no farther than the leading end will come (R82). -/
def State.inApproach (s : State) (r : RunRecord) (c : Car) (x : Int) : Bool :=
  if r.carUp c then decide (s.lead r c < x ∧ x ≤ s.leadStop r c)
  else decide (x < s.lead r c ∧ s.leadStop r c ≤ x)

/-- A braking-curve value to a target speed at a distance (R82). -/
def curve (vt a d : Nat) : Nat := isqrt (vt * vt + 2 * a * d)

/-- Boundaries between neighbouring segments: the lower and upper extent. -/
def boundaries : List Extent → List (Extent × Extent)
  | [] => []
  | [_] => []
  | x :: y :: rest => (x, y) :: boundaries (y :: rest)

/-- The segment drops of a car: curve values to the boundaries in its approach beyond which the limit is lower than at
its leading end (R82). -/
def State.segmentDrops (s : State) (r : RunRecord) (c : Car) : List Nat :=
  let here := ((s.geo.active.segmentAt (s.lead r c)).map (·.limit)).getD 0
  (boundaries s.geo.active.extents).filterMap fun (lower, upper) =>
    let entered := if r.carUp c then upper.seg else lower.seg
    let x : Int := upper.lo
    if s.inApproach r c x && decide (entered.limit < here) then
      some (curve entered.limit r.aEff (x - s.lead r c).natAbs)
    else none

/-- The restriction drops of a car: curve values to the near edges in its approach of IN FORCE restrictions wholly ahead
(R82). -/
def State.restrictionDrops (s : State) (r : RunRecord) (c : Car) : List Nat :=
  s.inForce.filterMap fun x =>
    let near : Int := if r.carUp c then x.spanStart else x.spanEnd
    if x.dir.admits (r.carUp c) && s.inApproach r c near then
      some (curve x.limit r.aEff (near - s.lead r c).natAbs)
    else none

/-- Car A's remaining distance to the target berth in its run direction (R83). -/
def State.remaining (s : State) (r : RunRecord) : Int :=
  if r.up then (s.berth r.target : Int) - s.posA else s.posA - (s.berth r.target : Int)

/-- The stop envelope (R83). -/
def State.envelope (s : State) (r : RunRecord) : Nat :=
  let d := s.remaining r
  if (s.window : Int) < d then
    max s.creep (isqrt (2 * r.aEff * (d - s.par 0x66).toNat))
  else 0

/-- The overrun condition: car A beyond the berth by more than w (R83). -/
def State.overrun (s : State) (r : RunRecord) : Bool := decide (s.remaining r < -(s.window : Int))

/-- The terms of the permitted speed (R81). -/
def State.permittedTerms (s : State) (r : RunRecord) : List Nat :=
  [r.speed, s.par 0x6C, s.envelope r]
    ++ (if s.geo.inspection then [s.par 0x68] else [])
    ++ (if s.geo.referenced then [] else [s.par 0x67])
    ++ (if s.mon.m1.raised then [r.speed * s.par 0x55 / 100] else [])
    ++ s.segmentTerms .a ++ s.segmentTerms .b
    ++ s.restrictionTerms .a ++ s.restrictionTerms .b
    ++ s.segmentDrops r .a ++ s.segmentDrops r .b
    ++ s.restrictionDrops r .a ++ s.restrictionDrops r .b

/-- The least of some speeds, clamped to 12,000 mm/s (R81). -/
def leastSpeed (l : List Nat) : Nat := l.foldr min 12000

/-- v_perm: from its terms in RUNNING, 0 in every other state (R80, R81). -/
def State.permitted (s : State) : Nat :=
  if s.running then
    match s.haul.run with
    | some r => leastSpeed (s.permittedTerms r)
    | none => 0
  else 0

/-- A halt cause is gone (R65). -/
def State.haltGone (s : State) : Bool :=
  match s.haul.haltCause with
  | .carLink => s.linksLive
  | .positionFault => s.geo.referenced
  | .overtension => !s.mon.overtension.raised
  | .notReferenced => s.geo.referenced
  | .noCause => true
  | .stopCommand => true
  | .startFailed => true
  | .doors => true
  | .offBerth => true

/-- A trip cause is absent (R96). -/
def State.causeAbsent (s : State) (c : TripCause) : Bool :=
  match c with
  | .overspeed => s.atRest
  | .absOverspeed => s.atRest
  | .slip => s.spd.slip == .absent
  | .disagree => s.spd.slip == .absent
  | .rollback => !s.spd.rollback
  | .slackRope => !s.mon.slack.raised
  | .overrun => s.atRest
  | .doorOpen => s.allLocked
  | .doorMotion => s.allLocked
  | .driveFault => !s.osb.driveFault
  | .estop => !s.osb.estop
  | .commanded => s.atRest

/-- The first cause or a further cause is a track-brake cause (R106, R109). -/
def State.trackBrakeLatched (s : State) : Bool :=
  ((s.osb.first.map TripCause.trackBrake).getD false)
    || allCauses.any fun c => c.trackBrake && causeIn s.osb.further c

/-- A car's latest valid uplink has its track-brake-applied flag clear, its link being LIVE (R106). -/
def CarState.railBrakesOff (c : CarState) : Bool :=
  c.live && ((c.report.map fun r => !r.trackBrake).getD false)

/-- t1 or t2 of a supervision reference (R91). -/
def threshold (vSup factor offset : Nat) : Nat := min 13000 (vSup + vSup * factor / 256 + offset)

/-! ### Admission -/

/-- The stop record that names a station, with its car (R116, R156). -/
def State.recordAt (s : State) (k : Nat) : Option (Car × StopRecord) :=
  match s.record .a, s.record .b with
  | some r, some q => if r.station = k then some (.a, r) else if q.station = k then some (.b, q) else none
  | some r, none => if r.station = k then some (.a, r) else none
  | none, some q => if q.station = k then some (.b, q) else none
  | none, none => none

/-- The boarding state of a station (R156). -/
def State.stationBoarding (s : State) (k : Nat) : Boarding :=
  if !s.hasGeometry || !s.inUse k || s.haul.line == .parked || s.geo.inspection then .outOfService
  else
    match s.recordAt k with
    | some (_, r) => if r.suspended then .suspended else if r.phase = .boarding then .opened else .closed
    | none => .closed

/-- A gate by its address 1 to 16. -/
def State.gate (s : State) (addr : Nat) : Option Gate := if addr = 0 then none else s.adm.gates[addr - 1]?

/-- The open claim of a gate (R165). -/
def State.claimOf (s : State) (addr : Nat) : Option Claim := s.adm.claims.find? fun c => c.gate == addr

/-- The boarding state a gate at this station is told, as last derived; a gate without a station is told OUT OF SERVICE
(R156, R159; log 19). -/
def State.boardingTold (s : State) (station : Option Nat) : Boarding :=
  match station with
  | some k => s.adm.boarding.getD k .outOfService
  | none => .outOfService

/-- The home bucket of a media number: the exclusive OR of its four groups of 10 bits (R137). -/
def homeBucket (m : Media) : Nat :=
  (m.extractLsb' 30 10 ^^^ m.extractLsb' 20 10 ^^^ m.extractLsb' 10 10 ^^^ m.extractLsb' 0 10).toNat

/-- The bucket a slot lies in (section 8.1). -/
def bucketOf (slot : Nat) : Nat := slot / 4

/-- The record of a slot, none when it is empty. -/
def entGet (t : EntTable) (slot : Nat) : Option EntRecord :=
  match t with
  | [] => none
  | (k, r) :: rest => if k = slot then some r else entGet rest slot

/-- The slots of a bucket, from the lowest (section 8.1). -/
def bucketSlots (b : Nat) : List Nat := [4 * b, 4 * b + 1, 4 * b + 2, 4 * b + 3]

/-- Find a media number in its home bucket (R140): its slot and record. -/
def entFind (t : EntTable) (m : Media) : Option (Nat × EntRecord) :=
  (bucketSlots (homeBucket m)).findSome? fun k =>
    match entGet t k with
    | some r => if r.media = m then some (k, r) else none
    | none => none

/-- The rides today in effect (R139). -/
def State.ridesInEffect (s : State) (d : DailyCap) : Nat :=
  if s.tsr.clockSet && d.rideDay == some s.tsr.day then d.today else 0

/-! ### Line link -/

/-- The command code of a command that comes over the line link (section 11.2). -/
def linkCode : Instr → Option Byte
  | .setClock _ => some 0x01
  | .getClock _ => some 0x02
  | .setParameter _ => some 0x03
  | .getParameter _ => some 0x04
  | .writeStagedHeader _ => some 0x10
  | .writeStagedStation _ => some 0x11
  | .writeStagedSegment _ => some 0x12
  | .readGeometry _ => some 0x13
  | .commitGeometry _ => some 0x14
  | .enterInspection _ => some 0x20
  | .leaveInspection _ => some 0x21
  | .home _ => some 0x22
  | .unpark _ => some 0x23
  | .park _ => some 0x24
  | .startRun _ => some 0x30
  | .stopRun _ => some 0x31
  | .resume _ => some 0x32
  | .emergencyStop _ => some 0x33
  | .resetTrip _ => some 0x34
  | .advance _ => some 0x40
  | .reopenDoors _ => some 0x41
  | .ackAlarm _ => some 0x42
  | .evacuate _ => some 0x43
  | .endEvacuation _ => some 0x44
  | .readStopRecord _ => some 0x45
  | .addRestriction _ => some 0x50
  | .amendRestriction _ => some 0x51
  | .retireRestriction _ => some 0x52
  | .readRestriction _ => some 0x53
  | .addEntitlement _ => some 0x60
  | .amendEntitlement _ => some 0x61
  | .blockEntitlement _ => some 0x62
  | .unblockEntitlement _ => some 0x63
  | .retireEntitlement _ => some 0x64
  | .lookUpEntitlement _ => some 0x65
  | .count _ => some 0x66
  | .setGate _ => some 0x70
  | .readGateStatus _ => some 0x71
  | .readLineStatus _ => some 0x80
  | .readMonitor _ => some 0x81
  | .sense _ => some 0x82
  | .softReset _ => some 0x83
  | .frameError _ => none
  | .invalid _ => none
  | .busy _ => none
  | .countingEdge _ _ _ => none
  | .standstillTimeout _ => none
  | .restConfirm => none
  | .slipTimerExpiry => none
  | .datumEdge _ => none
  | .monitorSample _ _ => none
  | .minuteBoundary => none
  | .haulSample => none
  | .pwmPeriod => none
  | .torqueReady => none
  | .torqueReadyTimeout => none
  | .emergencyStopInput _ => none
  | .driveFaultInput _ => none
  | .tripResetTime => none
  | .downlink _ => none
  | .uplink _ _ _ => none
  | .carLinkTimeout _ => none
  | .doorFault _ => none
  | .alightTimeExpiry _ => none
  | .boardTimeExpiry _ => none
  | .reopenTimeExpiry _ => none
  | .pollSlot => none
  | .gateResponse _ _ => none
  | .responseWindowExpiry => none
  | .claimLapse _ => none
  | .powerOnReset _ => none
  | .takenPhaseEdge _ _ _ _ => none
  | .datumLevelInactive _ => none
  | .torqueReadyInactive => none

/-- In these rows, in the order in which they are taken, the first frame that is judged (R177) is a command: its frame
has been released and its execution has not ended. BUSY is judged with a command executing and begins no execution;
every other row that is no frame is taken while the execution goes on; FRAME ERROR, INVALID and power-on reset find no
command executing (log 4). -/
def commandWaits : List Instr → Bool
  | [] => false
  | c :: rest =>
    match c with
    | .frameError _ => false
    | .invalid _ => false
    | .powerOnReset _ => false
    | _ => (linkCode c).isSome || commandWaits rest

/-- A command is executing (R178, R179): it waits to be taken, which ends its execution (log 4). -/
def State.executing (s : State) : Bool := commandWaits s.pending

/-- The link's status byte: IDLE, EXECUTING or RESULT READY (R179, section 11.2). -/
def State.statusByte (s : State) : Byte :=
  if s.executing then 2 else if s.lnk.buffer.isSome then 3 else 1

/-- The attention line is driven low (R183). -/
def State.attentionLow (s : State) : Bool := s.lnk.attention != 0

/-- The fields of a result with their CRC, as a read transaction shifts them out (R179, section 11.2). -/
def resultFrame (r : Result) : List Byte :=
  withCrc ([BitVec.ofNat 8 (resultCodeValue r.code), r.answered] ++ be1 r.data.length ++ r.data)

/-- What a read transaction returns before its fill bytes of 00h (R179): the status byte, and a result when the status is
RESULT READY or a BUSY result stands in the buffer of a command that is executing. -/
def State.readTransaction (s : State) : List Byte :=
  match s.lnk.buffer with
  | some r =>
    if s.executing && r.code != .busy then [s.statusByte] else s.statusByte :: resultFrame r
  | none => [s.statusByte]

/-- The bytes the device shifts out while a transaction clocks in these bytes, the state being that at chip select (R175,
R179): in a read the status byte, any result and fill bytes of 00h; in a command frame the status byte in every byte. -/
def State.shiftedOut (s : State) (sent : List Byte) : List Byte :=
  match sent with
  | [] => []
  | first :: rest =>
    if first = 0 then (s.readTransaction ++ List.replicate sent.length 0).take sent.length
    else s.statusByte :: rest.map fun _ => s.statusByte

end Sys2Proof.Machine
end

