-- ==== Sys2Proof/Machine/Ops.lean ====
section
/-! DEFINITION. The named operations over the state that several commands share: results, attention, stop phases, claims,
line transitions, and the taking of a trip cause. -/

namespace Sys2Proof.Machine

/-! ### Results, attention, time -/

/-- The execution of a command ends with this result: every change has been made, and the result is readable in the
buffer from now on (R178, R179). -/
def State.reply (s : State) (code : Byte) (rc : ResultCode) (data : List Byte) : State :=
  { s with lnk := { s.lnk with buffer := some ⟨rc, code, data⟩ } }

/-- The result REFUSED with its condition (R180). -/
def State.refuse (s : State) (code : Byte) (c : Condition) : State :=
  s.reply code .refused (be1 (conditionCode c))

/-- A line-link command: BAD PARAMETER where the parameter length does not match its form, and otherwise its own rule on
its fields (R178). -/
def withForm {α : Type} (code : Byte) (p : Form α) (s : State) (f : α → State) :
    Host.Outcome State Fault Refusal :=
  match p with
  | .wrongLength => .next (s.reply code .badParameter [])
  | .fields x => .next (f x)

/-- A cause joins the attention set (R183). -/
def State.raise (s : State) (c : Attention) : State :=
  { s with lnk := { s.lnk with attention := s.lnk.attention ||| attentionMask c } }

/-- The timebase reaches a time, unless it is already beyond it (log 3). -/
def State.advance (s : State) (t : Nat) : State := { s with now := max s.now t }

/-- The expiry of a timer: with the timer stopped nothing expires; otherwise the timebase has reached its deadline and
the event is taken (log 3). -/
def onExpiry (due : Option Nat) (s : State) (f : State → State) : State :=
  match due with
  | some t => f (s.advance t)
  | none => s

/-! ### Cars and stop records -/

/-- STP's state of a car is replaced. -/
def State.setCar (s : State) (c : Car) (x : CarState) : State :=
  match c with
  | .a => { s with stp := { s.stp with carA := x } }
  | .b => { s with stp := { s.stp with carB := x } }

/-- The stop record of a car is replaced or removed. -/
def State.setRecord (s : State) (c : Car) (r : Option StopRecord) : State :=
  s.setCar c { s.car c with record := r }

/-- A car's stop record, where there is one, is changed. -/
def State.modRecord (s : State) (c : Car) (f : StopRecord → StopRecord) : State :=
  match s.record c with
  | some r => s.setRecord c (some (f r))
  | none => s

/-- The car's load figure is fixed (R71, R124). -/
def State.setLoad (s : State) (c : Car) (n : Nat) : State :=
  match c with
  | .a => { s with haul := { s.haul with loadA := some n } }
  | .b => { s with haul := { s.haul with loadB := some n } }

/-- The weighing of a car, with the fallback where its last report carries no valid load (R118). -/
def State.weigh (s : State) (c : Car) (fallback : Nat) : Nat :=
  match (s.car c).report with
  | some r => if r.loadValid then (r.load + s.par 0x83 - 1) / s.par 0x83 else fallback
  | none => fallback

/-- A close is commanded: no frame has been built since, and the close deadline starts (R119). -/
def State.commandClose (s : State) (c : Car) (exitOnly : Bool) : State :=
  s.modRecord c fun r =>
    { r with close := some ⟨exitOnly, 0, false⟩, closeDue := some (s.now + sec (s.par 0x82)) }

/-- The entry to READY, with the car's load figure (R124). -/
def State.enterReady (s : State) (c : Car) : State :=
  match s.record c with
  | none => s
  | some r =>
    let base := r.wOpen.getD 0 + r.boarded
    let s1 := s.setRecord c
      (some { r with phase := .ready, phaseDue := none, closeDue := none, close := none, reopening := false })
    (s1.setLoad c (min 250 (max (s.weigh c base) base))).raise .stopPhase

/-- The test of a record in CLOSING for READY (R123). -/
def State.tryReady (s : State) (c : Car) : State :=
  match s.record c with
  | none => s
  | some r =>
    if r.phase = .closing ∧ r.reopening = false ∧ (r.close.map (·.confirmed)).getD false ∧ r.held = 0 then
      s.enterReady c
    else s

/-- The entry to CLOSING from BOARDING, or the return to it from READY: both sides are commanded closed (R123, R124). -/
def State.enterClosing (s : State) (c : Car) : State :=
  ((s.modRecord c fun r => { r with phase := .closing, phaseDue := none, reopening := false }).commandClose c
    false).raise .stopPhase

/-- The exit close of an ALIGHTING record (R121). -/
def State.exitClose (s : State) (c : Car) : State :=
  (s.modRecord c fun r => { r with phaseDue := none }).commandClose c true

/-- The entry to BOARDING: W_open and the quota by the weighing, the phase deadline from the board time (R118, R122). -/
def State.enterBoarding (s : State) (c : Car) : State :=
  match s.record c with
  | none => s
  | some r =>
    let w := s.weigh c (s.car c).admitted
    let time := ((s.geo.active.station r.station).map (·.board)).getD 0
    (s.setRecord c (some
      { r with phase := .boarding, wOpen := some w, quota := s.capacity - w, phaseDue := some (s.now + sec time),
               closeDue := none, close := none })).raise .stopPhase

/-- The entry to ALIGHTING; an alight time of 0 expires at entry (R121). -/
def State.enterAlighting (s : State) (c : Car) (alight : Nat) : State :=
  let s1 := (s.modRecord c fun r =>
    { r with phase := .alighting, phaseDue := some (s.now + sec alight) }).raise .stopPhase
  if alight = 0 then s1.exitClose c else s1

/-- The test of an ARRIVED record for the berthed conditions; in inspection mode they are not tested (R120). -/
def State.testBerthed (s : State) (c : Car) : State :=
  match s.record c with
  | none => s
  | some r =>
    if r.phase = .arrived ∧ s.geo.inspection = false ∧ s.berthedConditions c r then
      match s.geo.active.station r.station with
      | some x => if x.separateExit.isSome then s.enterAlighting c x.alight else s.enterBoarding c
      | none => s.enterBoarding c
    else s

/-- The test of an ARRIVED record in inspection mode: with both sides last reported LOCKED it is weighed with a quota of
0 and enters READY directly (R120). A suspended record waits (R130; log 20). -/
def State.testInspection (s : State) (c : Car) : State :=
  match s.record c with
  | none => s
  | some r =>
    if r.phase = .arrived ∧ s.geo.inspection ∧ r.suspended = false ∧ (s.car c).locked then
      (s.setRecord c (some { r with wOpen := some (s.weigh c (s.car c).admitted), quota := 0 })).enterReady c
    else s

/-- The two tests by which a record may leave ARRIVED at its creation and at a valid uplink (R120). -/
def State.testArrived (s : State) (c : Car) : State := (s.testBerthed c).testInspection c

/-- A new record of a car at a station takes the car's pending alarm (R116). -/
def State.newRecord (s : State) (c : Car) (k : Nat) : State :=
  let x := s.car c
  s.setCar c
    { x with
      pendingAlarm := false
      record := some
        { station := k, phase := .arrived, wOpen := none, quota := 0, boarded := 0, held := 0, late := 0,
          alarm := x.pendingAlarm, doorFault := false, suspended := false, phaseDue := none, closeDue := none,
          close := none, reopening := false } }

/-- The stop records of an entry to DWELL at station k: car A at k, car B at 3 − k (R116). -/
def State.createRecords (s : State) (k : Nat) : State :=
  ((((s.newRecord .a k).newRecord .b (3 - k)).raise .stopPhase).testArrived .a).testArrived .b

/-- A car's pending alarm is moved into its kept record (R74, R75, R107). -/
def State.moveAlarm (s : State) (c : Car) : State :=
  match s.record c with
  | some r =>
    s.setCar c
      { s.car c with
        pendingAlarm := false, record := some { r with alarm := r.alarm || (s.car c).pendingAlarm } }
  | none => s

/-! ### The entitlement table -/

/-- A record is put into a slot. -/
def entPut (t : EntTable) (slot : Nat) (r : EntRecord) : EntTable :=
  match t with
  | [] => [(slot, r)]
  | (k, x) :: rest =>
    if slot < k then (slot, r) :: (k, x) :: rest
    else if slot = k then (slot, r) :: rest
    else (k, x) :: entPut rest slot r

/-- A slot becomes empty. -/
def entErase (t : EntTable) (slot : Nat) : EntTable := t.filter fun p => p.1 != slot

/-- The record of a slot, where there is one, is changed. -/
def entModify (t : EntTable) (slot : Nat) (f : EntRecord → EntRecord) : EntTable :=
  t.map fun p => if p.1 = slot then (p.1, f p.2) else p

/-- Every record of the table is changed. -/
def entMap (t : EntTable) (f : EntRecord → EntRecord) : EntTable := t.map fun p => (p.1, f p.2)

/-- The form of the table: slots strictly rising, each below 4,096, every record in the bucket its number hashes to
(R136, R137). -/
def entWf (t : EntTable) : Bool :=
  decide ((t.map (·.1)).Pairwise (· < ·))
    && t.all fun p => decide (p.1 < 4096 ∧ bucketOf p.1 = homeBucket p.2.media)

/-- The entitlement table is replaced. -/
def State.setEnt (s : State) (t : EntTable) : State := { s with ent := { s.ent with table := t } }

/-- The claim field of the record in a slot becomes absent (R148). -/
def State.detachClaim (s : State) (slot : Nat) : State :=
  s.setEnt (entModify s.ent.table slot fun r => { r with claim := none })

/-- Steps 2 to 4 of a commit of n persons at a station (R149). -/
def commitRecord (clock : Option ServiceTime) (station n : Nat) (r : EntRecord) : EntRecord :=
  { r with
    rides := if r.kind = .multi then r.rides.map (· - n) else r.rides
    daily := match r.kind, clock, r.daily with
      | .period, some t, some d =>
        let d0 : DailyCap := if d.rideDay = some t.day then d else { d with today := 0, rideDay := some t.day }
        some { d0 with today := min 15 (d0.today + 1) }
      | _, _, d => d
    stamp := match clock with
      | some t => some ⟨station, t.day, t.minute⟩
      | none => r.stamp }

/-- A commit consumes a SINGLE record, and a MULTI record whose rides stand at 0 (R151). -/
def EntRecord.consumed (r : EntRecord) : Bool :=
  match r.kind with
  | .single => true
  | .multi => r.rides == some 0
  | .period => false
  | .staff => false

/-- The clock's present time while it is set. -/
def State.clock (s : State) : Option ServiceTime := if s.tsr.clockSet then some s.time else none

/-- Steps 2 to 5 of a commit on the record of a slot (R149, R151). -/
def State.commitSlot (s : State) (slot station n : Nat) : State :=
  match entGet s.ent.table slot with
  | none => s
  | some r =>
    let r1 := commitRecord s.clock station n r
    s.setEnt (if r1.consumed then entErase s.ent.table slot else entModify s.ent.table slot fun _ => r1)

/-- The on-time commit (R149). -/
def State.onTimeCommit (s : State) (slot station n : Nat) : State := (s.detachClaim slot).commitSlot slot station n

/-- The late commit: the record that now holds the number is charged if it carries no claim (R150). -/
def State.lateCommit (s : State) (m : Media) (station n : Nat) : State :=
  match entFind s.ent.table m with
  | some (slot, r) => if r.claim.isSome then s else s.commitSlot slot station n
  | none => s

/-! ### Claims -/

/-- A gate, where the address names one, is changed. -/
def State.modGate (s : State) (addr : Nat) (f : Gate → Gate) : State :=
  match s.gate addr with
  | some g => { s with adm := { s.adm with gates := s.adm.gates.set (addr - 1) (f g) } }
  | none => s

/-- A claim leaves the claims list and its deadline stops. -/
def State.dropClaim (s : State) (id : Byte) : State :=
  { s with adm := { s.adm with claims := s.adm.claims.filter fun c => c.id != id } }

/-- Held falls by the persons of a claim, and a record in CLOSING tests for READY (R117, R123). -/
def State.lowerHeld (s : State) (c : Car) (n : Nat) : State :=
  (s.modRecord c fun r => { r with held := r.held - n }).tryReady c

/-- Boarded rises by n and saturates at 250; what it took is added to the admitted-run count, and to late for a late
passage (R117, R118). -/
def State.addBoarded (s : State) (c : Car) (n : Nat) (late : Bool) : State :=
  match s.record c with
  | none => s
  | some r =>
    let took := min n (250 - r.boarded)
    s.setCar c
      { s.car c with
        admitted := min 65535 ((s.car c).admitted + took)
        record := some { r with boarded := r.boarded + took, late := if late then r.late + took else r.late } }

/-- The lapse of a claim: held is returned if the record still exists, the claim leaves its entitlement record and the
claims list, and the gate remembers it (R166). -/
def State.lapseClaim (s : State) (cl : Claim) : State :=
  let present := (s.record cl.car).isSome
  let station := ((s.gate cl.gate).bind (·.station)).getD 0
  let s1 := ((s.lowerHeld cl.car cl.persons).detachClaim cl.slot).dropClaim cl.id
  s1.modGate cl.gate fun g =>
    { g with memory := some ⟨cl.id, cl.media, cl.persons, station, if present then some cl.car else none⟩ }

/-- Every memory that names a car's stop record marks it as absent (R166). -/
def State.forgetRecord (s : State) (c : Car) : State :=
  { s with adm := { s.adm with gates := s.adm.gates.map fun g =>
      { g with memory := g.memory.map fun m => if m.record = some c then { m with record := none } else m } } }

/-- The discard of a car's stop record (R117): its claims lapse with the record absent (R170). -/
def State.discardRecord (s : State) (c : Car) : State :=
  match s.record c with
  | none => s
  | some _ =>
    ((s.adm.claims.filter fun cl => cl.car == c).foldl State.lapseClaim (s.setRecord c none)).forgetRecord c

/-- The discard of both stop records. -/
def State.discardRecords (s : State) : State := (s.discardRecord .a).discardRecord .b

/-- The claims of a soft reset: removed from the table and the list, with no memory made and every memory cleared; every
ADMIT is replaced by REFUSE OUT OF SERVICE (R148, R170, R174). -/
def State.clearClaims (s : State) : State :=
  let t := entMap s.ent.table fun r => { r with claim := none }
  { s with
    ent := { s.ent with table := t }
    adm :=
      { s.adm with
        claims := []
        gates := s.adm.gates.map fun g =>
          { g with
            memory := none
            answer := match g.answer with
              | .admission _ _ _ => .refuse .outOfService
              | a => a } } }

/-! ### Boarding states -/

/-- The boarding states are derived again; a change queues a broadcast (R156). -/
def State.deriveBoarding (s : State) : State :=
  let new := [s.stationBoarding 0, s.stationBoarding 1, s.stationBoarding 2, s.stationBoarding 3]
  if new = s.adm.boarding then s
  else { s with adm := { s.adm with boarding := new, broadcastPending := true } }

/-! ### Line transitions -/

/-- The safety brake is released in DWELL, RUNNING and HALTED (R102). -/
def LineState.safetyReleased : LineState → Bool
  | .parked => false
  | .tripped => false
  | .dwell => true
  | .starting => true
  | .moving => true
  | .intervening => true
  | .halted => true

/-- The service brake is released in MOVING (R102). -/
def LineState.serviceReleased : LineState → Bool
  | .moving => true
  | _ => false

/-- Evacuation releases stay in force in HALTED and TRIPPED alone (R132). -/
def LineState.keepsEvacuation : LineState → Bool
  | .halted => true
  | .tripped => true
  | _ => false

/-- Every evacuation release ends (R132). -/
def State.endEvacuations (s : State) : State :=
  { s with stp :=
      { carA := { s.stp.carA with evacLeft := false, evacRight := false }
        carB := { s.stp.carB with evacLeft := false, evacRight := false } } }

/-- A transition of the line state: the drive enable (R63), the brake outputs (R102), v_dem (R86), the rollback condition
(R29) and the evacuation releases (R132) follow it, and LINE STATE is raised (R63, R109). -/
def State.setLine (s : State) (l : LineState) : State :=
  let s1 := if l.keepsEvacuation then s else s.endEvacuations
  ({ s1 with
      haul := { s1.haul with line := l, driveEnable := l.running, vDem := 0, rampFrom := 0 }
      osb := { s1.osb with safetyReleased := l.safetyReleased, serviceReleased := l.serviceReleased }
      spd := { s1.spd with rollback := l.running && s1.spd.rollback } }).raise .lineState

/-- v_perm takes a value at a transition. -/
def State.setPerm (s : State) (v : Nat) : State := { s with haul := { s.haul with vPerm := v } }

/-- A new v_sup is published: both thresholds are recomputed, and a new v_abs takes effect (R87, R91, R110). -/
def State.publishSup (s : State) (v : Nat) : State :=
  { s with
    haul := { s.haul with vSup := v }
    osb := { s.osb with
      t1 := threshold v (s.par 0x70) (s.par 0x71)
      t2 := threshold v (s.par 0x72) (s.par 0x73)
      vAbs := s.par 0x74 } }

/-- The run record is replaced or discarded. -/
def State.setRun (s : State) (r : Option RunRecord) : State := { s with haul := { s.haul with run := r } }

/-- The halt cause is set (R65). -/
def State.setHalt (s : State) (h : HaltCause) : State := { s with haul := { s.haul with haltCause := h } }

/-- The torque-ready timer stops (R73). -/
def State.stopTorque (s : State) : State := { s with haul := { s.haul with torqueDue := none } }

/-- The entry to HALTED: the drive off, the service brake applied, v_perm 0, any stop records discarded, the run record
kept (R76). -/
def State.enterHalted (s : State) (h : HaltCause) : State :=
  ((((s.setLine .halted).setHalt h).setPerm 0).stopTorque).discardRecords

/-- An event of R76 ends a run in HALTED; in any other state it changes nothing of the line. -/
def State.haltEvent (s : State) (h : HaltCause) : State := if s.running then s.enterHalted h else s

/-- The speeds and the run record at an entry to DWELL (R66, R78, R107). -/
def State.dwellSpeeds (s : State) : State :=
  ((((s.setRun none).setHalt .noCause).stopTorque).setPerm 0).publishSup 0

/-- The entry to DWELL at a station with new stop records (R66, R78, R107, R116). -/
def State.enterDwell (s : State) (k : Nat) : State := ((s.setLine .dwell).dwellSpeeds).createRecords k

/-- A return to DWELL after a failed or ended start: the records stay, and pending alarms move into them (R74, R75). -/
def State.returnToDwell (s : State) (h : HaltCause) : State :=
  ((((s.setLine .dwell).dwellSpeeds).setHalt h).moveAlarm .a).moveAlarm .b

/-- The entry to PARKED: the stop records and the run record are discarded (R67, R90). -/
def State.enterParked (s : State) : State := (((s.setLine .parked).discardRecords).dwellSpeeds)

/-! ### Taking a trip cause -/

/-- Both stop records, where present, are suspended or no longer so (R107, R130). -/
def State.setSuspended (s : State) (b : Bool) : State :=
  (s.modRecord .a fun r => { r with suspended := b }).modRecord .b fun r => { r with suspended := b }

/-- The track-brake hold becomes 0 for a track-brake cause (R104). -/
def State.dropHold (s : State) (c : TripCause) : State :=
  if c.trackBrake then { s with osb := { s.osb with hold := false } } else s

/-- A cause joins the further causes and TRIP is raised (R100). -/
def State.addFurther (s : State) (c : TripCause) : State :=
  ({ s with osb := { s.osb with further := causeInsert s.osb.further c } }).raise .trip

/-- The trip latch takes its first cause (R100). -/
def State.latch (s : State) (c : TripCause) : State :=
  { s with osb := { s.osb with
      first := some c, fromState := some s.haul.line, vTrip := s.spd.vMeas, further := 0 } }

/-- The trip reset wait begins: its timer starts at once when the line is at rest (R105). -/
def State.beginWait (s : State) : State :=
  { s with osb := { s.osb with
      resetElapsed := false
      resetDue := if s.atRest then some (s.now + sec (s.par 0x76)) else none } }

/-- The entry to TRIPPED with a first cause (R101). -/
def State.enterTripped (s : State) (c : TripCause) : State :=
  (((((((s.latch c).setLine .tripped).setPerm 0).stopTorque).dropHold c).beginWait).setSuspended true).raise .trip

/-- OSB takes a trip cause (R100): recorded for E-STOP and ignored otherwise in PARKED, a further cause in TRIPPED, the
entry to TRIPPED in every other state. -/
def State.takeCause (s : State) (c : TripCause) : State :=
  match s.haul.line with
  | .parked => if c = .estop then s.addFurther c else s
  | .tripped => if s.osb.first = some c ∨ causeIn s.osb.further c then s else (s.addFurther c).dropHold c
  | .dwell => s.enterTripped c
  | .starting => s.enterTripped c
  | .moving => s.enterTripped c
  | .intervening => s.enterTripped c
  | .halted => s.enterTripped c

/-- Trip causes taken one after the other. -/
def State.takeAll (s : State) (cs : List TripCause) : State := cs.foldl State.takeCause s

/-- The index of the next free choice moves on (log 6). -/
def State.bumpChoice (s : State) : State := { s with choices := s.choices + 1 }

/-- Two causes that arrive together: either may be taken first (R96; log 6). -/
def State.takeBoth (s : State) (c d : TripCause) : State :=
  if Config.secondFirst s.choices then s.bumpChoice.takeAll [d, c] else s.bumpChoice.takeAll [c, d]

/-! ### The comparison -/

/-- The line states in which OSB compares: RUNNING and HALTED (R92). -/
def LineState.compared : LineState → Bool
  | .starting => true
  | .moving => true
  | .intervening => true
  | .halted => true
  | _ => false

/-- The trip causes that a comparison finds, ABSOLUTE OVERSPEED ahead of OVERSPEED (R92). -/
def State.speedCauses (s : State) : List TripCause :=
  if s.haul.line.compared then
    (if s.osb.vAbs < s.spd.vMeas then [.absOverspeed] else []) ++ (if s.osb.t2 < s.spd.vMeas then [.overspeed] else [])
  else []

/-- A comparison without a trip cause enters INTERVENING (R93). -/
def State.mustIntervene (s : State) : Bool := s.haul.line == .moving && decide (s.osb.t1 < s.spd.vMeas)

/-- The release test passes (R94). -/
def State.mayRelease (s : State) : Bool :=
  s.haul.line == .intervening && decide (s.spd.vMeas + s.par 0x75 ≤ s.haul.vPerm)

/-- A service intervention (R93). -/
def State.intervene (s : State) : State :=
  let s1 := s.setLine .intervening
  ({ s1 with osb := { s1.osb with interventions := min 65535 (s1.osb.interventions + 1) } }).raise .intervention

/-- The release of an intervention: the demand ramps up from v_meas (R86, R94). -/
def State.releaseIntervention (s : State) : State :=
  let s1 := s.setLine .moving
  { s1 with haul := { s1.haul with rampFrom := s1.spd.vMeas } }

/-- OSB's comparison (R92). -/
def State.compare (s : State) : State :=
  match s.speedCauses with
  | [] => if s.mustIntervene then s.intervene else if s.mayRelease then s.releaseIntervention else s
  | c :: cs => s.takeAll (c :: cs)

/-- The comparison changes something. -/
def State.compareActs (s : State) : Bool := !s.speedCauses.isEmpty || s.mustIntervene || s.mayRelease

/-- A comparison together with a trip cause from another block: where both act, either may be taken first, and both reach
the latch (R96; log 6). -/
def State.compareWith (s : State) (c : TripCause) : State :=
  if s.compareActs then
    if Config.secondFirst s.choices then s.bumpChoice.takeAll (c :: s.speedCauses)
    else (s.bumpChoice.compare).takeCause c
  else s.takeCause c

/-! ### The rollback test -/

/-- The rollback requirements are met (R29). -/
def State.rollbackMet (s : State) : Bool :=
  s.running && s.spd.rope.capture == .measuring
    && ((s.haul.run.map fun r => s.spd.rope.forward != r.up).getD false)
    && decide (s.par 0x26 < s.spd.rope.speed)

/-- A comparison with the rollback test: ROLLBACK is handed over when the condition goes present (R29). -/
def State.compareRollback (s : State) : State :=
  let s1 := { s with spd := { s.spd with rollback := s.rollbackMet } }
  if s.rollbackMet && !s.spd.rollback then s1.compareWith .rollback else s1.compare

/-! ### Restriction table -/

/-- An entry of the restriction table, none when FREE. -/
def State.entry (s : State) (n : Nat) : Option Restriction := s.tsr.table.getD n none

/-- An entry of the restriction table is written or freed. -/
def State.setEntry (s : State) (n : Nat) (x : Option Restriction) : State :=
  { s with tsr := { s.tsr with table := s.tsr.table.set n x } }

end Sys2Proof.Machine
end

