-- ==== Sys2Proof/Machine/Entitlements.lean ====
section
/-! DEFINITION. ENT: the commands on the entitlement table (spec 08). -/

namespace Sys2Proof.Machine

/-! ### ADD -/

/-- The lowest-numbered empty slot of a bucket (R142). -/
def lowestEmpty (t : EntTable) (b : Nat) : Option Nat := (bucketSlots b).find? fun k => (entGet t k).isNone

/-- The valid-until day of a record that is a reclaim candidate on a day: before that day, with no claim (R142). -/
def EntRecord.reclaimDay (r : EntRecord) (today : Nat) : Option Nat :=
  match r.validUntil with
  | some d => if d < today ∧ r.claim = none then some d else none
  | none => none

/-- A reclaim candidate: its slot, its valid-until day and its media number. -/
structure Candidate where
  slot : Nat
  day : Nat
  media : Media
  deriving DecidableEq, Repr

/-- The reclaim candidates of a bucket, from the lowest slot (R142). -/
def candidates (t : EntTable) (b today : Nat) : List Candidate :=
  (bucketSlots b).filterMap fun k =>
    match entGet t k with
    | some r => (EntRecord.reclaimDay r today).map fun d => ⟨k, d, r.media⟩
    | none => none

/-- The candidate with the earliest valid-until day, the lowest slot among equal days (R142). -/
def earliest : List Candidate → Option Candidate
  | [] => none
  | c :: rest =>
    match earliest rest with
    | some x => if x.day < c.day then some x else some c
    | none => some c

/-- The candidate an ADD into a full bucket reclaims: none while the clock is unset (R142). -/
def State.reclaimed (s : State) (b : Nat) : Option Candidate :=
  if s.tsr.clockSet then earliest (candidates s.ent.table b s.tsr.day) else none

/-- ADD ENTITLEMENT on its record: the checks of R141, then the placement of R142. -/
def addEntitlement (t : EntTransfer) (s : State) : State :=
  let b := homeBucket t.media
  let place (slot : Nat) (gone : Media) : State :=
    (s.setEnt (entPut s.ent.table slot (entOfTransfer t))).reply 0x60 .ok (be2 slot ++ be5 gone)
  if !entTransferGood t then s.reply 0x60 .badParameter []
  else
    match entFind s.ent.table t.media with
    | some _ => s.reply 0x60 .duplicate []
    | none =>
      match lowestEmpty s.ent.table b with
      | some k => place k 0
      | none =>
        match s.reclaimed b with
        | some c => place c.slot c.media
        | none => s.reply 0x60 .tableFull []

/-- ADD_ENTITLEMENT (R141, R142). -/
def execAddEntitlement (p : Form EntTransfer) (s : State) : Host.Outcome State Fault Refusal :=
  withForm 0x60 p s fun t => addEntitlement t s

/-! ### AMEND -/

/-- The actions of AMEND ENTITLEMENT (R143). -/
inductive Action where
  | keep | set | remove
  deriving DecidableEq, Repr

/-- The action a code names: 0 KEEP, 1 SET, 2 REMOVE (R190). -/
def actionOf (x : BitVec 2) : Option Action :=
  if x = 0 then some .keep else if x = 1 then some .set else if x = 2 then some .remove else none

/-- The five actions of an AMEND ENTITLEMENT. -/
structure EntActions where
  rides : Action
  group : Action
  untilDay : Action
  stations : Action
  cap : Action
  deriving DecidableEq, Repr

/-- The actions carried, none where a code is no action or not one allowed for its field (R143 check 1, R190). -/
def actionsOf (a : BitVec 16) : Option EntActions :=
  match actionOf (a.extractLsb' 0 2), actionOf (a.extractLsb' 2 2), actionOf (a.extractLsb' 4 2),
    actionOf (a.extractLsb' 6 2), actionOf (a.extractLsb' 8 2) with
  | some r, some g, some u, some st, some c =>
    if r = .remove ∨ g = .remove then none else some ⟨r, g, u, st, c⟩
  | _, _, _, _, _ => none

/-- Every value given with SET lies in its range (R143 check 1). -/
def valuesInRange (x : EntActions) (a : AmendEntArgs) : Bool :=
  (x.group != .set || decide (1 ≤ a.group.toNat ∧ a.group.toNat ≤ 9))
    && (x.stations != .set || decide (1 ≤ a.stations.toNat ∧ a.stations.toNat ≤ 15))
    && (x.cap != .set || decide (1 ≤ a.cap.toNat ∧ a.cap.toNat ≤ 15))

/-- Every action other than KEEP is allowed for the record's kind (R143 check 4). -/
def actionsAllowed (x : EntActions) (a : AmendEntArgs) (r : EntRecord) : Bool :=
  (x.rides == .keep || r.kind == .multi)
    && (x.group == .keep || a.group == 1 || r.kind == .single || r.kind == .multi)
    && (match x.untilDay, r.kind with
        | .keep, _ => true
        | _, .staff => false
        | .remove, .period => false
        | .set, .period => decide (r.validFrom.getD 0 ≤ a.untilDay.toNat)
        | _, _ => true)
    && (x.cap == .keep || r.kind == .period)

/-- A field after an action: kept, set, or absent. -/
def Action.on {α : Type} (act : Action) (old : Option α) (new : α) : Option α :=
  match act with
  | .keep => old
  | .set => some new
  | .remove => none

/-- The daily cap after an action: a SET adds the cap with count 0, or changes the cap alone (R143). -/
def capOn (act : Action) (old : Option DailyCap) (n : Nat) : Option DailyCap :=
  Action.on act old (match old with
    | some d => { d with cap := n }
    | none => ⟨n, 0, none⟩)

/-- The record as amended (R143). -/
def amendedEnt (x : EntActions) (a : AmendEntArgs) (r : EntRecord) : EntRecord :=
  { r with
    rides := Action.on x.rides r.rides a.rides.toNat
    group := (Action.on x.group (some r.group) a.group.toNat).getD r.group
    validUntil := Action.on x.untilDay r.validUntil a.untilDay.toNat
    stations := Action.on x.stations r.stations (a.stations.extractLsb' 0 4)
    daily := capOn x.cap r.daily a.cap.toNat }

/-- AMEND ENTITLEMENT on its fields: the four checks of R143 in order. -/
def amendEntitlement (a : AmendEntArgs) (s : State) : State :=
  match actionsOf a.actions with
  | none => s.reply 0x61 .badParameter []
  | some x =>
    if a.media = 0 ∨ valuesInRange x a = false then s.reply 0x61 .badParameter []
    else
      match entFind s.ent.table a.media with
      | none => s.reply 0x61 .notFound []
      | some (slot, r) =>
        if r.claim.isSome then s.reply 0x61 .inUse []
        else if !actionsAllowed x a r then s.reply 0x61 .badParameter []
        else
          (s.setEnt (entModify s.ent.table slot fun _ => amendedEnt x a r)).reply 0x61 .ok
            (entRecordBytes (amendedEnt x a r))

/-- AMEND_ENTITLEMENT (R143). -/
def execAmendEntitlement (p : Form AmendEntArgs) (s : State) : Host.Outcome State Fault Refusal :=
  withForm 0x61 p s fun a => amendEntitlement a s

/-! ### BLOCK, UNBLOCK, RETIRE -/

/-- BLOCK and UNBLOCK of a media number (R144). The result carries the state: 0 ACTIVE, 1 BLOCKED (R189; log 15). -/
def setBlocked (code : Byte) (blocked : Bool) (m : Media) (s : State) : State :=
  if m = 0 then s.reply code .badParameter []
  else
    match entFind s.ent.table m with
    | none => s.reply code .notFound []
    | some (slot, _) =>
      (s.setEnt (entModify s.ent.table slot fun r => { r with blocked := blocked })).reply code .ok
        (be1 (if blocked then 1 else 0))

/-- BLOCK_ENTITLEMENT (R144). -/
def execBlockEntitlement (p : Form Media) (s : State) : Host.Outcome State Fault Refusal :=
  withForm 0x62 p s fun m => setBlocked 0x62 true m s

/-- UNBLOCK_ENTITLEMENT (R144). -/
def execUnblockEntitlement (p : Form Media) (s : State) : Host.Outcome State Fault Refusal :=
  withForm 0x63 p s fun m => setBlocked 0x63 false m s

/-- RETIRE ENTITLEMENT of a media number (R145). -/
def retireEntitlement (m : Media) (s : State) : State :=
  if m = 0 then s.reply 0x64 .badParameter []
  else
    match entFind s.ent.table m with
    | none => s.reply 0x64 .notFound []
    | some (slot, r) =>
      if r.claim.isSome then s.reply 0x64 .inUse []
      else (s.setEnt (entErase s.ent.table slot)).reply 0x64 .ok (be2 slot)

/-- RETIRE_ENTITLEMENT (R145). -/
def execRetireEntitlement (p : Form Media) (s : State) : Host.Outcome State Fault Refusal :=
  withForm 0x64 p s fun m => retireEntitlement m s

/-! ### LOOK UP and COUNT -/

/-- The answer of LOOK UP with the record of a slot (R146, section 11.3). -/
def State.lookUpAnswer (s : State) (found : Option (Nat × EntRecord)) : State :=
  match found with
  | some (slot, r) => s.reply 0x65 .ok (be2 slot ++ entRecordBytes r)
  | none => s.reply 0x65 .notFound []

/-- LOOK UP ENTITLEMENT on its fields (R146, R190). -/
def lookUpEntitlement (a : LookUpArgs) (s : State) : State :=
  match a with
  | .long form m =>
    if form ≠ 0 ∨ m = 0 then s.reply 0x65 .badParameter [] else s.lookUpAnswer (entFind s.ent.table m)
  | .short form slot =>
    if form ≠ 1 ∨ 4095 < slot.toNat then s.reply 0x65 .badParameter []
    else s.lookUpAnswer ((entGet s.ent.table slot.toNat).map fun r => (slot.toNat, r))

/-- LOOK_UP_ENTITLEMENT (R146). -/
def execLookUpEntitlement (p : Form LookUpArgs) (s : State) : Host.Outcome State Fault Refusal :=
  withForm 0x65 p s fun a => lookUpEntitlement a s

/-- The fill of a bucket (R147). -/
def bucketFill (t : EntTable) (b : Nat) : Nat := (t.filter fun p => bucketOf p.1 == b).length

/-- The fill of the fullest bucket (R147). -/
def fullestFill (t : EntTable) : Nat := t.foldr (fun p acc => max (bucketFill t (bucketOf p.1)) acc) 0

/-- The lowest-numbered bucket with the fullest fill, 0 when the table is empty (R147). The table lists its slots in
rising order, so the first such bucket is the lowest. -/
def fullestBucket (t : EntTable) : Nat :=
  ((t.map fun p => bucketOf p.1).find? fun b => bucketFill t b == fullestFill t).getD 0

/-- The figures of COUNT (R147). -/
def countData (t : EntTable) : List Byte :=
  be2 t.length ++ be2 (t.filter (·.2.blocked)).length ++ be1 (t.filter (·.2.claim.isSome)).length
    ++ be1 (fullestFill t) ++ be2 (fullestBucket t)

/-- COUNT (R147). -/
def execCount (p : Form NoArgs) (s : State) : Host.Outcome State Fault Refusal :=
  withForm 0x66 p s fun _ => s.reply 0x66 .ok (countData s.ent.table)

end Sys2Proof.Machine
end

