-- ==== Sys2Proof/Machine/Gates.lean ====
section
/-! DEFINITION. ADM: the gate map, the poll arbiter, responses, presentations and claims (spec 09). -/

namespace Sys2Proof.Machine

/-! ### SET GATE -/

/-- The station a SET GATE carries: 0 to 3, or FFh for NONE; none for any other code (R155, section 11.2). -/
def gateStationOf (x : Byte) : Option (Option Nat) :=
  if x = 0xFF then some none else if x.toNat ≤ 3 then some (some x.toNat) else none

/-- A gate's map entry is replaced; an enabled gate that is disabled goes OFFLINE with miss count 0 and loses its pending
reply (R155). -/
def Gate.mapped (g : Gate) (station : Option Nat) (enable : Bool) : Gate :=
  if g.enabled && !enable then
    { g with station := station, enabled := false, online := false, misses := 0, replyPending := false }
  else { g with station := station, enabled := enable }

/-- SET GATE on its fields: the checks of R155 in order. -/
def setGate (a : GateArgs) (s : State) : State :=
  let k := a.address.toNat
  match gateStationOf a.station with
  | none => s.reply 0x70 .badParameter []
  | some st =>
    if k < 1 ∨ 16 < k ∨ 1 < a.enable.toNat then s.reply 0x70 .badParameter []
    else if st = none ∧ a.enable = 1 then s.reply 0x70 .badParameter []
    else if (s.claimOf k).isSome then s.reply 0x70 .inUse []
    else (s.modGate k fun g => Gate.mapped g st (a.enable == 1)).reply 0x70 .ok []

/-- SET_GATE (R155). -/
def execSetGate (p : Form GateArgs) (s : State) : Host.Outcome State Fault Refusal :=
  withForm 0x70 p s fun a => setGate a s

/-! ### READ GATE STATUS -/

/-- A lapsed-claim memory in a gate's status: the presence byte of the group, the presence byte of its one optional
field, then id, media number, persons, station and the stop record's car, zero where it is marked absent (R172, R189; log
15). -/
def memoryBytes : Option Memory → List Byte
  | some m =>
    1 :: (be1 (bits [m.record.isSome]) ++ [m.id] ++ be5 m.media ++ be1 m.persons ++ be1 m.station
      ++ be1 ((m.record.map carCode).getD 0))
  | none => List.replicate 11 0

/-- An open claim in a gate's status: a presence byte, id, media number, slot, persons, car, time remaining (R172; log
15), which is rounded down to ms (log 40). -/
def State.claimBytes (s : State) : Option Claim → List Byte
  | some c =>
    1 :: c.id :: (be5 c.media ++ be2 c.slot ++ be1 c.persons ++ be1 (carCode c.car) ++ be4 (wholeMs (c.due - s.now)))
  | none => 0 :: List.replicate 14 0

/-- A gate's status (R172; log 15). The station NONE is sent as FFh, the code that SET GATE has for it, and the last answer
as the four answer bytes of a poll frame (section 11.5): chapter 11 lays out neither for this result, and both are the model's
choice (log 15). -/
def State.gateData (s : State) (k : Nat) (g : Gate) : List Byte :=
  be1 (g.station.getD 0xFF) ++ flag1 g.enabled ++ be1 (if g.online then 0 else 1) ++ be1 g.misses
    ++ be1 (healthCode g.health) ++ be1 (toggleCode g.toggle) ++ flag1 g.replyPending ++ answerBytes g.answer
    ++ memoryBytes g.memory ++ s.claimBytes (s.claimOf k)

/-- The summary of READ GATE STATUS 0 (R172; log 15). -/
def State.gateSummary (s : State) : List Byte :=
  s.adm.boarding.flatMap (fun b => be1 (boardingCode b)) ++ flag1 s.adm.broadcastPending ++ be1 s.adm.pollCount
    ++ [s.adm.lastClaimId] ++ be1 s.adm.claims.length
    ++ s.adm.claims.flatMap fun c => be1 c.gate ++ [c.id] ++ be1 c.persons

/-- READ GATE STATUS of an address (R172). -/
def readGateStatus (x : Byte) (s : State) : State :=
  if x = 0 then s.reply 0x71 .ok s.gateSummary
  else
    match s.gate x.toNat with
    | some g => s.reply 0x71 .ok (s.gateData x.toNat g)
    | none => s.reply 0x71 .badParameter []

/-- READ_GATE_STATUS (R172). -/
def execReadGateStatus (p : Form Byte) (s : State) : Host.Outcome State Fault Refusal :=
  withForm 0x71 p s fun x => readGateStatus x s

/-! ### The poll arbiter -/

/-- The gate addresses. -/
def gateAddresses : List Nat := [1, 2, 3, 4, 5, 6, 7, 8, 9, 10, 11, 12, 13, 14, 15, 16]

/-- The normal class: every enabled gate (R158). -/
def State.normalClass (s : State) : List Nat :=
  gateAddresses.filter fun k => ((s.gate k).map (·.enabled)).getD false

/-- The urgent class: every enabled gate with a pending reply or an open claim (R158). -/
def State.urgentClass (s : State) : List Nat :=
  s.normalClass.filter fun k => ((s.gate k).map (·.replyPending)).getD false || (s.claimOf k).isSome

/-- The next gate of a class listed from its lowest address: the lowest above the pointer, else the lowest (R158). -/
def nextGate (cls : List Nat) (ptr : Nat) : Option Nat :=
  match cls.find? fun k => decide (ptr < k) with
  | some k => some k
  | none => cls.head?

/-- What a slot carries (R158). -/
inductive SlotFrame where
  | broadcast
  | normalPoll (addr : Nat)
  | urgentPoll (addr : Nat)
  | nothing
  deriving DecidableEq, Repr

/-- The urgent rule, then the normal rule (R158, rules 3 and 4). -/
def State.urgentOrNormal (s : State) : SlotFrame :=
  match nextGate s.urgentClass s.adm.urgentPtr, nextGate s.normalClass s.adm.normalPtr with
  | some k, _ => .urgentPoll k
  | none, some k => .normalPoll k
  | none, none => .nothing

/-- The frame the arbiter chooses for a slot (R158). -/
def State.slotChoice (s : State) : SlotFrame :=
  if s.adm.broadcastPending then .broadcast
  else
    match nextGate s.normalClass s.adm.normalPtr with
    | some k => if s.adm.pollCount = 3 then .normalPoll k else s.urgentOrNormal
    | none => s.urgentOrNormal

/-- The poll count after a slot that carries a poll (R158). -/
def nextPollCount (n : Nat) : Nat := if n = 3 then 0 else n + 1

/-- The poll count after the slot that runs: a broadcast slot, an empty one and the time before the first leave it
(R158). -/
def AdmState.countAfterSlot (a : AdmState) : Nat := if a.slotPolls then nextPollCount a.pollCount else a.pollCount

/-- The slot that runs is over: the poll count rises where it carried a poll (R158). -/
def State.endSlot (s : State) : State :=
  { s with adm := { s.adm with pollCount := s.adm.countAfterSlot, slotPolls := false } }

/-- The broadcast frame (R160, section 11.5). -/
def broadcastFrame (l : List Boarding) : List Byte :=
  withCrc ([0] ++ be1 (l.foldr (fun b acc => boardingCode b + 4 * acc) 0))

/-- The poll frame of a gate with a boarding state (R159, section 11.5). -/
def pollFrame (addr : Nat) (g : Gate) (b : Boarding) : List Byte :=
  withCrc (be1 addr ++ be1 (toggleCode g.toggle + 16 * boardingCode b)
    ++ answerBytes (if g.replyPending then g.answer else .noAnswer))

/-- The characters of a poll frame last 8 × 11 bit times at 115,200 bit/s, 764 µs rounded up (R154; log 22). -/
def pollFrameTime : Nat := 764

/-- The response window lasts 4 ms (R161). -/
def responseWindow : Nat := 4000

/-- A poll of a gate is sent: its frame is built, its reply is no longer pending, its response is awaited (R159, R161).
The slot carries a poll, after which the poll count rises (R158). -/
def State.sendPoll (s : State) (addr : Nat) : State :=
  match s.gate addr with
  | some g =>
    let s1 := s.modGate addr fun x => { x with replyPending := false }
    { s1 with adm := { s1.adm with
        lastFrame := pollFrame addr g (s.boardingTold g.station)
        polled := some addr
        windowDue := some (s.now + pollFrameTime + responseWindow)
        slotPolls := true } }
  | none => s

/-- A slot begins, which ends the slot before (log 41): the timer restarts and the slot's frame is sent (R157 to R160). -/
def State.beginSlot (s : State) : State :=
  let s0 := s.endSlot
  let s1 :=
    { s0 with adm := { s0.adm with pollDue := some (s.now + ms (s.par 0x90)), polled := none, windowDue := none } }
  match s0.slotChoice with
  | .broadcast =>
    { s1 with adm := { s1.adm with broadcastPending := false, lastFrame := broadcastFrame s.adm.boarding } }
  | .normalPoll k => ({ s1 with adm := { s1.adm with normalPtr := k } }).sendPoll k
  | .urgentPoll k => ({ s1 with adm := { s1.adm with urgentPtr := k } }).sendPoll k
  | .nothing => s1

/-- The slot timer has expired while a response was still being received: the new slot begins now (R157; log 23). -/
def State.beginWaiting (s : State) : State := if s.adm.pollDue.isNone then s.beginSlot else s

/-- POLL_SLOT (R157): a slot begins, or waits for the end of the response still being received. -/
def execPollSlot (s : State) : Host.Outcome State Fault Refusal :=
  .next (onExpiry s.adm.pollDue s fun s1 =>
    if s1.adm.polled.isSome then { s1 with adm := { s1.adm with pollDue := none } } else s1.beginSlot)

/-! ### Responses -/

/-- The response of the polled gate is no longer awaited. -/
def State.endAwait (s : State) : State := { s with adm := { s.adm with polled := none, windowDue := none } }

/-- A missed poll at a gate that stands so: whether it goes OFFLINE (R162). -/
def State.goesOffline (s : State) (g : Gate) : Bool :=
  g.online && decide (s.par 0x91 ≤ min 255 (g.misses + 1))

/-- The polled gate has missed its poll (R162). -/
def State.miss (s : State) (addr : Nat) : State :=
  match s.gate addr with
  | some g =>
    let off := s.goesOffline g
    let s1 := s.modGate addr fun x => { x with misses := min 255 (x.misses + 1), online := x.online && !off }
    if off then s1.raise .gate else s1
  | none => s

/-- A good response at its gate: ONLINE, no misses, the health code (R162). -/
def State.goodResponse (s : State) (addr : Nat) (h : Health) : State :=
  match s.gate addr with
  | some g =>
    let s1 := s.modGate addr fun x => { x with misses := 0, online := true, health := h }
    if g.online = false ∨ g.health ≠ h then s1.raise .gate else s1
  | none => s

/-! ### Presentations and claims -/

/-- The reason of check 1 for a boarding state other than OPEN (R164). -/
def boardingReason : Boarding → Option Reason
  | .opened => none
  | .closed => some .closed
  | .suspended => some .suspended
  | .outOfService => some .outOfService

/-- Check 9 of R164 fails: a PERIOD record stamped at this station within the passback interval. -/
def State.passback (s : State) (r : EntRecord) (station : Nat) : Bool :=
  match r.kind, r.stamp with
  | .period, some st =>
    st.station == station && decide (0 < s.par 0xA1)
      && decide (s.time.count < st.day * 1440 + st.minute + s.par 0xA1)
  | _, _ => false

/-- Check 11 of R164 fails: the rides today in effect reach the daily cap. -/
def State.capReached (s : State) (r : EntRecord) : Bool :=
  r.kind == .period && ((r.daily.map fun d => decide (d.cap ≤ s.ridesInEffect d)).getD false)

/-- The first of checks 3 to 11 of R164 that fails on a record presented at a station. -/
def State.recordRefusal (s : State) (r : EntRecord) (station : Nat) : Option Reason :=
  if r.blocked then some .blocked
  else if r.claim.isSome then some .inUse
  else if (r.validFrom.isSome || r.validUntil.isSome) && !s.tsr.clockSet then some .noClock
  else if (r.validFrom.map fun d => decide (s.tsr.day < d)).getD false then some .notYet
  else if (r.validUntil.map fun d => decide (d < s.tsr.day)).getD false then some .expired
  else if !((r.stations.map fun m => m.getLsbD station).getD true) then some .wrongStation
  else if s.passback r station then some .passback
  else if r.kind == .multi && r.rides.getD 0 == 0 then some .noRides
  else if s.capReached r then some .dailyLimit
  else none

/-- free = quota − boarded − held (R164 check 12). -/
def StopRecord.free (r : StopRecord) : Nat := r.quota - r.boarded - r.held

/-- A claim id is held by an open claim or by a lapsed-claim memory (R165). -/
def AdmState.idHeld (a : AdmState) (id : Byte) : Bool :=
  (a.claims.any fun c => c.id == id) || a.gates.any fun g => (g.memory.map fun m => m.id == id).getD false

/-- The claim id after an id: 1 to 255, and then 1 again (R165). -/
def nextId (id : Byte) : Byte := if id = 255 then 1 else id + 1

/-- The first id after an id that is not held (R165). At most 32 are passed over, so 33 tries find one. -/
def AdmState.freshId (a : AdmState) : Nat → Byte → Byte
  | 0, id => nextId id
  | n + 1, id => if a.idHeld (nextId id) then AdmState.freshId a n (nextId id) else nextId id

/-- The claim id issued next (R165). -/
def AdmState.issue (a : AdmState) : Byte := AdmState.freshId a 33 a.lastClaimId

/-- The persons allowed: the least of the group size, the free places and, for MULTI, the rides remaining (R165). -/
def personsAllowed (r : EntRecord) (free : Nat) : Nat :=
  let n := min r.group free
  if r.kind = .multi then min n (r.rides.getD 0) else n

/-- Rides left in an ADMIT: rides remaining less the persons for MULTI, 255 for the rest (R165). -/
def ridesLeft (r : EntRecord) (persons : Nat) : Nat := if r.kind = .multi then r.rides.getD 0 - persons else 255

/-- A claim is opened at a gate on a slot's record against a car's stop record (R165). -/
def State.openClaim (s : State) (addr slot : Nat) (r : EntRecord) (c : Car) (persons : Nat) : State :=
  let id := s.adm.issue
  let s1 := s.modRecord c fun q => { q with held := q.held + persons }
  let s2 := s1.setEnt (entModify s1.ent.table slot fun x => { x with claim := some ⟨addr, id⟩ })
  { s2 with adm := { s2.adm with
      lastClaimId := id
      claims := s2.adm.claims ++ [⟨id, addr, c, slot, r.media, persons, s.now + sec (s.par 0xA0)⟩] } }

/-- The open claim of a gate, where there is one, lapses (R164, R166). -/
def State.lapseOwn (s : State) (addr : Nat) : State :=
  match s.claimOf addr with
  | some cl => s.lapseClaim cl
  | none => s

/-- The checks of R164 on a record found, and the claim of R165: the state and the reply. -/
def State.admitRecord (s : State) (addr station slot : Nat) (r : EntRecord) : State × Answer :=
  match s.recordRefusal r station, s.recordAt station with
  | some why, _ => (s, .refuse why)
  | none, none => (s, .refuse .carFull)
  | none, some (c, q) =>
    if StopRecord.free q = 0 then (s, .refuse .carFull)
    else
      let n := personsAllowed r (StopRecord.free q)
      (s.openClaim addr slot r c n, .admission s.adm.issue n (ridesLeft r n))

/-- A taken PRESENT (R164, R165): the state and the reply. -/
def State.present (s : State) (addr : Nat) (m : Media) : State × Answer :=
  let s1 := s.lapseOwn addr
  let station := (s1.gate addr).bind (·.station)
  match boardingReason (s1.boardingTold station) with
  | some why => (s1, .refuse why)
  | none =>
    match entFind s1.ent.table m with
    | none => (s1, .refuse .unknown)
    | some (slot, r) => s1.admitRecord addr (station.getD 0) slot r

/-- The open claim of a gate with an id. -/
def State.ownClaim (s : State) (addr : Nat) (id : Byte) : Option Claim :=
  (s.claimOf addr).filter fun c => c.id == id

/-- The lapsed-claim memory of a gate with an id. -/
def State.ownMemory (s : State) (addr : Nat) (id : Byte) : Option Memory :=
  ((s.gate addr).bind (·.memory)).filter fun m => m.id == id

/-- A claim ends without a passage: no ride, no memory (R168). -/
def State.abandonClaim (s : State) (cl : Claim) : State :=
  ((s.lowerHeld cl.car cl.persons).detachClaim cl.slot).dropClaim cl.id

/-- A gate's lapsed-claim memory is cleared. -/
def State.clearMemory (s : State) (addr : Nat) : State := s.modGate addr fun g => { g with memory := none }

/-- A passage settles a claim: boarded, held, the on-time commit, the claims list (R167). -/
def State.settleClaim (s : State) (addr : Nat) (cl : Claim) (n : Nat) : State :=
  let k := min n cl.persons
  let station := ((s.gate addr).bind (·.station)).getD 0
  ((((s.addBoarded cl.car k false).lowerHeld cl.car cl.persons).onTimeCommit cl.slot station k)).dropClaim cl.id

/-- A late passage is counted into its stop record in BOARDING or CLOSING (R169). -/
def State.countLate (s : State) (m : Memory) (n : Nat) : State :=
  match m.record with
  | some c => if s.inPhase c .boarding || s.inPhase c .closing then s.addBoarded c n true else s
  | none => s

/-- A late passage of n persons on a gate's lapsed-claim memory (R169). -/
def State.latePassage (s : State) (addr : Nat) (m : Memory) (n : Nat) : State :=
  let k := min n m.persons
  ((s.countLate m k).lateCommit m.media m.station k).clearMemory addr

/-- A taken PASSED (R167 to R169): the state and the reply. -/
def State.passed (s : State) (addr : Nat) (id : Byte) (n : Nat) : State × Answer :=
  match s.ownClaim addr id with
  | some cl => (if n = 0 then s.abandonClaim cl else s.settleClaim addr cl n, .noAnswer)
  | none =>
    match s.ownMemory addr id with
    | some m => (if n = 0 then s else s.latePassage addr m n, .late id)
    | none => (s, .late id)

/-- A taken ABANDONED (R168): the state and the reply. -/
def State.abandoned (s : State) (addr : Nat) (id : Byte) : State × Answer :=
  match s.ownClaim addr id with
  | some cl => (s.abandonClaim cl, .noAnswer)
  | none => (if (s.ownMemory addr id).isSome then s.clearMemory addr else s, .noAnswer)

/-- The reply to a taken message becomes the gate's last answer and its pending reply, with the toggle (R163). -/
def State.answer (s : State) (addr : Nat) (toggle : Bool) (a : Answer) : State :=
  s.modGate addr fun g => { g with toggle := some toggle, answer := a, replyPending := true }

/-- A gate's last answer becomes pending again (R163). -/
def State.repeatAnswer (s : State) (addr : Nat) : State := s.modGate addr fun g => { g with replyPending := true }

/-- A message other than NONE: processed when it is taken, answered again when it is a duplicate (R163). -/
def State.takeMessage (s : State) (addr : Nat) (toggle : Bool) (m : GateMessage) : State :=
  let duplicate := ((s.gate addr).bind (·.toggle)) == some toggle
  match m with
  | .noMessage => s
  | .present media =>
    if duplicate then s.repeatAnswer addr
    else (s.present addr media).1.answer addr toggle (s.present addr media).2
  | .passed id n =>
    if duplicate then s.repeatAnswer addr
    else (s.passed addr id n).1.answer addr toggle (s.passed addr id n).2
  | .abandoned id =>
    if duplicate then s.repeatAnswer addr
    else (s.abandoned addr id).1.answer addr toggle (s.abandoned addr id).2

/-- The response of the polled gate is handled (R161 to R163). -/
def State.handleResponse (s : State) (addr : Nat) (charsOk : Bool) (frame : List Byte) : State :=
  match gateFrameOf addr charsOk frame with
  | some f => ((s.goodResponse addr f.health).takeMessage addr f.toggle f.message).deriveBoarding
  | none => s.miss addr

/-- GATE_RESPONSE (R161): taken at the end of its frame; characters received while no gate is awaited are discarded (R160;
log 24). A slot that waited for the end of the frame begins. -/
def execGateResponse (charsOk : Bool) (frame : List Byte) (s : State) : Host.Outcome State Fault Refusal :=
  .next (match s.adm.polled with
    | some addr => (s.endAwait.handleResponse addr charsOk frame).beginWaiting
    | none => s)

/-- RESPONSE_WINDOW_EXPIRY (R161): no character has started, the gate has missed the poll. -/
def execResponseWindowExpiry (s : State) : Host.Outcome State Fault Refusal :=
  .next (onExpiry s.adm.windowDue s fun s1 =>
    match s1.adm.polled with
    | some addr => (s1.endAwait.miss addr).beginWaiting
    | none => s1)

/-- The open claim with an id. -/
def State.claimById (s : State) (id : Byte) : Option Claim := s.adm.claims.find? fun c => c.id == id

/-- CLAIM_LAPSE (R166): the deadline of a claim expires. -/
def execClaimLapse (id : Byte) (s : State) : Host.Outcome State Fault Refusal :=
  .next (match s.claimById id with
    | some cl => ((s.advance cl.due).lapseClaim cl).deriveBoarding
    | none => s)

end Sys2Proof.Machine
end

