-- ==== Sys2Proof/Machine/Restrictions.lean ====
section
/-! DEFINITION. TSR: the service clock and the restriction table (spec 03). -/

namespace Sys2Proof.Machine

/-- A record is appended to the ended list; a full list drops its oldest and sets the overflow flag (R45). -/
def State.appendEnded (s : State) (r : EndedRecord) : State :=
  if s.tsr.ended.length < 8 then { s with tsr := { s.tsr with ended := s.tsr.ended ++ [r] } }
  else { s with tsr := { s.tsr with ended := s.tsr.ended.drop 1 ++ [r], overflow := true } }

/-- A PENDING entry whose from-time is due goes IN FORCE (R35). -/
def State.pendingEntry (s : State) (r : Restriction) : Restriction :=
  { r with inForce := r.inForce || (r.fromTime.map s.due).getD false }

/-- The pending pass over the table (R35). -/
def State.pendingPass (s : State) : State :=
  { s with tsr := { s.tsr with table := s.tsr.table.map (Option.map s.pendingEntry) } }

/-- An entry that the expiry pass retires: IN FORCE with an until-time that is due (R35). -/
def State.expired (s : State) (r : Restriction) : Bool := r.inForce && (r.untilTime.map s.due).getD false

/-- The retirement of one entry by the expiry pass (R35, R45). -/
def State.expire (s : State) (n : Nat) : State :=
  match s.entry n with
  | some r =>
    if s.expired r then (((s.setEntry n none).appendEnded ⟨n, r.label, s.time⟩).raise .restrictionEnded) else s
  | none => s

/-- The expiry pass over the entries in rising order (R35; log 14). -/
def State.expiryPass (s : State) : State := (List.range 32).foldl State.expire s

/-- The boundary passes: the pending pass and then the expiry pass (R35). -/
def State.boundaryPasses (s : State) : State := s.pendingPass.expiryPass

/-- MINUTE_BOUNDARY (R32): at day 65,535, minute 1,439 the sub-minute count stops and no boundary is taken. -/
def execMinuteBoundary (s : State) : Host.Outcome State Fault Refusal :=
  .next (onExpiry s.tsr.minuteDue s fun s1 =>
    if s1.tsr.day = 65535 ∧ s1.tsr.minute = 1439 then { s1 with tsr := { s1.tsr with minuteDue := none } }
    else
      let due := s.tsr.minuteDue.map (· + 60000000)
      let tsr1 :=
        if s1.tsr.minute + 1 = 1440 then { s1.tsr with minute := 0, day := s1.tsr.day + 1, minuteDue := due }
        else { s1.tsr with minute := s1.tsr.minute + 1, minuteDue := due }
      ({ s1 with tsr := tsr1 }).boundaryPasses)

/-- SET CLOCK on its fields (R33). -/
def setClock (a : ClockArgs) (s : State) : State :=
  if 1439 < a.minute.toNat then s.reply 0x01 .badParameter []
  else
    (({ s with tsr := { s.tsr with
          clockSet := true, day := a.day.toNat, minute := a.minute.toNat,
          minuteDue := some (s.now + 60000000) } }).boundaryPasses).reply 0x01 .ok []

/-- SET_CLOCK (R33). -/
def execSetClock (p : Form ClockArgs) (s : State) : Host.Outcome State Fault Refusal :=
  withForm 0x01 p s fun a => setClock a s

/-- GET_CLOCK (R34): set flag, day, minute. -/
def execGetClock (p : Form NoArgs) (s : State) : Host.Outcome State Fault Refusal :=
  withForm 0x02 p s fun _ => s.reply 0x02 .ok (flag1 s.tsr.clockSet ++ be2 s.tsr.day ++ be2 s.tsr.minute)

/-- The from-time an ADD carries, when its presence bit is set (section 11.4). -/
def AddRestrictionArgs.fromTime (a : AddRestrictionArgs) : Option ServiceTime :=
  if a.presence.getLsbD 0 then some ⟨a.fromDay.toNat, a.fromMinute.toNat⟩ else none

/-- The until-time an ADD carries, when its presence bit is set (section 11.4). -/
def AddRestrictionArgs.untilTime (a : AddRestrictionArgs) : Option ServiceTime :=
  if a.presence.getLsbD 1 then some ⟨a.untilDay.toNat, a.untilMinute.toNat⟩ else none

/-- A time given has a minute of at most 1,439. -/
def minuteGood (t : Option ServiceTime) : Bool := (t.map fun x => decide (x.minute ≤ 1439)).getD true

/-- Two times given are in order: the until-time later than the from-time. -/
def timesOrdered (f u : Option ServiceTime) : Bool :=
  match f, u with
  | some x, some y => decide (x.count < y.count)
  | _, _ => true

/-- A limit raised to the creep speed (R41, R42, R55). -/
def State.raisedLimit (s : State) (n : Nat) : Nat := max n s.creep

/-- The lowest-numbered FREE LINE slot (R41). -/
def State.freeLineSlot (s : State) : Option Nat :=
  (List.range 32).find? fun n => decide (6 ≤ n) && (s.entry n).isNone

/-- The entry an ADD places (R41). -/
def State.addedEntry (s : State) (a : AddRestrictionArgs) (d : RestrictionDir) : Restriction :=
  let f := AddRestrictionArgs.fromTime a
  { inForce := (f.map s.due).getD true
    spanStart := min a.spanStart.toNat s.len
    spanEnd := min a.spanEnd.toNat s.len
    limit := s.raisedLimit a.limit.toNat
    dir := d
    fromTime := f
    untilTime := AddRestrictionArgs.untilTime a
    label := if a.presence.getLsbD 2 then some a.label.toNat else none }

/-- ADD RESTRICTION on its fields: the checks of R40 in order, then the placement of R41. -/
def addRestriction (a : AddRestrictionArgs) (s : State) : State :=
  let f := AddRestrictionArgs.fromTime a
  let u := AddRestrictionArgs.untilTime a
  if !s.hasGeometry then s.reply 0x50 .wrongState []
  else
    match restrictionDirOf a.direction with
    | none => s.reply 0x50 .badParameter []
    | some d =>
      if !minuteGood f || !minuteGood u || decide (12000 < a.limit.toNat) then s.reply 0x50 .badParameter []
      else if s.len ≤ a.spanStart.toNat ∨ a.spanEnd.toNat ≤ a.spanStart.toNat then s.reply 0x50 .badParameter []
      else if !s.tsr.clockSet && (f.isSome || u.isSome) then s.reply 0x50 .noClock []
      else if !timesOrdered f u || (u.map s.due).getD false then s.reply 0x50 .badParameter []
      else
        match s.freeLineSlot with
        | none => s.reply 0x50 .tableFull []
        | some n => (s.setEntry n (some (s.addedEntry a d))).reply 0x50 .ok (be1 n)

/-- ADD_RESTRICTION (R40, R41). -/
def execAddRestriction (p : Form AddRestrictionArgs) (s : State) : Host.Outcome State Fault Refusal :=
  withForm 0x50 p s fun a => addRestriction a s

/-- The until-time actions of AMEND RESTRICTION (R42). -/
inductive UntilAction where
  | keep | remove
  | set (t : ServiceTime)
  deriving DecidableEq, Repr

/-- The action an AMEND carries, none for a code that is no action or a minute above 1,439 given with SET (R42). -/
def untilActionOf (a : AmendRestrictionArgs) : Option UntilAction :=
  if a.action = 0 then some .keep
  else if a.action = 1 then some .remove
  else if a.action = 2 ∧ a.untilMinute.toNat ≤ 1439 then some (.set ⟨a.untilDay.toNat, a.untilMinute.toNat⟩)
  else none

/-- The entry as amended (R42). -/
def State.amendedEntry (s : State) (r : Restriction) (limit : Nat) (act : UntilAction) : Restriction :=
  { r with
    limit := s.raisedLimit limit
    untilTime := match act with
      | .keep => r.untilTime
      | .remove => none
      | .set t => some t }

/-- AMEND RESTRICTION on its fields: the checks of R42 in order. -/
def amendRestriction (a : AmendRestrictionArgs) (s : State) : State :=
  let n := a.entry.toNat
  match untilActionOf a with
  | none => s.reply 0x51 .badParameter []
  | some act =>
    if 31 < n ∨ 12000 < a.limit.toNat then s.reply 0x51 .badParameter []
    else if n < 6 then s.reply 0x51 .wrongOrigin []
    else
      match s.entry n with
      | none => s.reply 0x51 .notFound []
      | some r =>
        let r1 := s.amendedEntry r a.limit.toNat act
        let done := (s.setEntry n (some r1)).reply 0x51 .ok (restrictionBytes n (some r1))
        match act with
        | .keep => done
        | .remove => done
        | .set t =>
          if !s.tsr.clockSet then s.reply 0x51 .noClock []
          else if !timesOrdered r.fromTime (some t) || s.due t then s.reply 0x51 .badParameter []
          else done

/-- AMEND_RESTRICTION (R42). -/
def execAmendRestriction (p : Form AmendRestrictionArgs) (s : State) : Host.Outcome State Fault Refusal :=
  withForm 0x51 p s fun a => amendRestriction a s

/-- RETIRE RESTRICTION of an entry (R43). -/
def retireRestriction (x : Byte) (s : State) : State :=
  let n := x.toNat
  if 31 < n then s.reply 0x52 .badParameter []
  else if n < 6 then s.reply 0x52 .wrongOrigin []
  else
    match s.entry n with
    | none => s.reply 0x52 .notFound []
    | some _ => (s.setEntry n none).reply 0x52 .ok []

/-- RETIRE_RESTRICTION (R43). -/
def execRetireRestriction (p : Form Byte) (s : State) : Host.Outcome State Fault Refusal :=
  withForm 0x52 p s fun x => retireRestriction x s

/-- The ended list as READ RESTRICTION 255 returns it (R45, section 11.4). -/
def TsrState.endedData (t : TsrState) : List Byte :=
  flag1 t.overflow ++ be1 t.ended.length ++ t.ended.flatMap endedBytes

/-- READ RESTRICTION of an entry, or of the ended list (R44, R45). -/
def readRestriction (x : Byte) (s : State) : State :=
  let n := x.toNat
  if n < 32 then s.reply 0x53 .ok (restrictionBytes n (s.entry n))
  else if n = 255 then
    ({ s with tsr := { s.tsr with ended := [], overflow := false } }).reply 0x53 .ok s.tsr.endedData
  else s.reply 0x53 .badParameter []

/-- READ_RESTRICTION (R44). -/
def execReadRestriction (p : Form Byte) (s : State) : Host.Outcome State Fault Refusal :=
  withForm 0x53 p s fun x => readRestriction x s

/-- The re-spanning of an entry to a new track length (R46). -/
def respanEntry (len : Nat) (x : Option Restriction) : Option Restriction :=
  match x with
  | some r =>
    if r.spanEnd ≤ len then some r else if r.spanStart < len then some { r with spanEnd := len } else none
  | none => none

/-- The re-spanning of the table at a geometry commit (R46). -/
def State.respan (s : State) (len : Nat) : State :=
  { s with tsr := { s.tsr with table := s.tsr.table.map (respanEntry len) } }

end Sys2Proof.Machine
end

