-- ==== Sys2Proof/Machine/Monitor.lean ====
section
/-! DEFINITION. MON: the environment monitor (spec 04). -/

namespace Sys2Proof.Machine

/-- A monitor channel is replaced. -/
def State.setMonChannel (s : State) (ch : MonChannel) (c : MonChannelState) : State :=
  match ch with
  | .wind => { s with mon := { s.mon with wind := c } }
  | .tension => { s with mon := { s.mon with tension := c } }
  | .rail => { s with mon := { s.mon with rail := c } }
  | .motor => { s with mon := { s.mon with motor := c } }

/-- A condition is replaced. -/
def State.setCond (s : State) (k : CondId) (c : Cond) : State :=
  match k with
  | .w1 => { s with mon := { s.mon with w1 := c } }
  | .w2 => { s with mon := { s.mon with w2 := c } }
  | .frost => { s with mon := { s.mon with frost := c } }
  | .m1 => { s with mon := { s.mon with m1 := c } }
  | .m2 => { s with mon := { s.mon with m2 := c } }
  | .slack => { s with mon := { s.mon with slack := c } }
  | .overtension => { s with mon := { s.mon with overtension := c } }

/-- v4 and v20 of a channel: parameters 0x40 to 0x47 (R50, R62). -/
def State.scale (s : State) : MonChannel → Int × Int
  | .wind => (paramGet s.params 0x40, paramGet s.params 0x41)
  | .tension => (paramGet s.params 0x42, paramGet s.params 0x43)
  | .rail => (paramGet s.params 0x44, paramGet s.params 0x45)
  | .motor => (paramGet s.params 0x46, paramGet s.params 0x47)

/-- A reading of 0 to 639 or 4,081 to 4,095 is faulted (R50). -/
def readingFaulted (r : Nat) : Bool := r ≤ 639 || 4081 ≤ r

/-- The value of a reading that is not faulted (R50). -/
def scaledValue (v4 v20 : Int) (r : Nat) : Int :=
  if r < 800 then v4 else if 4000 < r then v20 else v4 + ((r : Int) - 800) * (v20 - v4) / 3200

/-- The conditions fed by a channel (section 4.1). -/
def condsOf : MonChannel → List CondId
  | .wind => [.w1, .w2]
  | .tension => [.slack, .overtension]
  | .rail => [.frost]
  | .motor => [.m1, .m2]

/-- The value is past the raise threshold, in the sense of the table of section 4.2 (R52). -/
def State.pastRaise (s : State) (k : CondId) (v : Int) : Bool :=
  match k with
  | .w1 => decide (paramGet s.params 0x48 ≤ v)
  | .w2 => decide (paramGet s.params 0x4A ≤ v)
  | .frost => decide (v ≤ paramGet s.params 0x4C)
  | .m1 => decide (paramGet s.params 0x4E ≤ v)
  | .m2 => decide (paramGet s.params 0x50 ≤ v)
  | .slack => decide (v ≤ paramGet s.params 0x52)
  | .overtension => decide (paramGet s.params 0x53 ≤ v)

/-- The value is past the clear threshold, in the sense of the table of section 4.2 (R53). -/
def State.pastClear (s : State) (k : CondId) (v : Int) : Bool :=
  match k with
  | .w1 => decide (v < paramGet s.params 0x49)
  | .w2 => decide (v < paramGet s.params 0x4B)
  | .frost => decide (paramGet s.params 0x4D ≤ v)
  | .m1 => decide (v < paramGet s.params 0x4F)
  | .m2 => decide (v < paramGet s.params 0x51)
  | .slack => decide (slackClear (paramGet s.params 0x52) < v)
  | .overtension => decide (v < paramGet s.params 0x54)

/-- The raise count of a condition in samples (R52). -/
def raiseCountOf : CondId → Nat
  | .w1 => 3
  | .w2 => 3
  | .frost => 10
  | .m1 => 10
  | .m2 => 10
  | .slack => 2
  | .overtension => 10

/-- The clear sustain of a condition in samples (R52, R53). -/
def State.sustainOf (s : State) (k : CondId) : Nat :=
  match k with
  | .w1 => s.par 0x56 * 10
  | .w2 => s.par 0x57 * 10
  | .frost => s.par 0x58 * 10
  | .m1 => s.par 0x59 * 10
  | .m2 => s.par 0x59 * 10
  | .slack => 50
  | .overtension => 50

/-- An entry that MON writes: IN FORCE, direction BOTH, no times, no label, the limit raised to the creep speed (R55). -/
def State.monEntry (s : State) (lo hi limit : Nat) : Restriction :=
  { inForce := true, spanStart := lo, spanEnd := hi, limit := s.raisedLimit limit, dir := .both, fromTime := none,
    untilTime := none, label := none }

/-- WIND slot k: written for exposed run k, freed where there is no such run (R56, R58). -/
def State.writeWindSlot (s : State) (k : Nat) : State :=
  match s.geo.active.exposedRuns[k]? with
  | some (lo, hi) => s.setEntry k (some (s.monEntry lo hi (s.par 0x30)))
  | none => s.setEntry k none

/-- The WIND slots while W1 is RAISED with an active geometry (R56, R58). -/
def State.writeWind (s : State) : State :=
  if s.hasGeometry then [0, 1, 2, 3, 4].foldl State.writeWindSlot s else s

/-- The WIND slots are freed (R56). -/
def State.freeWind (s : State) : State := [0, 1, 2, 3, 4].foldl (fun t k => t.setEntry k none) s

/-- The FROST slot over [0, L] while FROST is RAISED with an active geometry (R57). -/
def State.writeFrost (s : State) : State :=
  if s.hasGeometry then s.setEntry 5 (some (s.monEntry 0 s.len (s.par 0x31))) else s

/-- The effect of a condition becoming RAISED (R56 to R59). The caps and holds of the others are read, not handed over. -/
def State.raiseEffect (s : State) (k : CondId) : State :=
  match k with
  | .w1 => s.writeWind
  | .frost => s.writeFrost
  | .slack => s.takeCause .slackRope
  | .overtension => s.haltEvent .overtension
  | .w2 => s
  | .m1 => s
  | .m2 => s

/-- The effect of a condition becoming CLEAR (R56, R57). -/
def State.clearEffect (s : State) (k : CondId) : State :=
  match k with
  | .w1 => s.freeWind
  | .frost => s.setEntry 5 none
  | .slack => s
  | .overtension => s
  | .w2 => s
  | .m1 => s
  | .m2 => s

/-- A condition becomes RAISED: counts 0, attention MONITOR, its effect (R52, R60). -/
def State.raiseCond (s : State) (k : CondId) : State := ((s.setCond k ⟨true, 0, 0⟩).raise .monitor).raiseEffect k

/-- A condition becomes CLEAR (R53, R60). -/
def State.clearCond (s : State) (k : CondId) : State := ((s.setCond k ⟨false, 0, 0⟩).raise .monitor).clearEffect k

/-- The evaluation of a condition at a good sample (R52, R53). -/
def State.evalCond (s : State) (v : Int) (k : CondId) : State :=
  let c := s.mon.cond k
  if c.raised then
    if s.pastClear k v then
      if s.sustainOf k ≤ c.clearCount + 1 then s.clearCond k else s.setCond k { c with clearCount := c.clearCount + 1 }
    else s.setCond k { c with clearCount := 0 }
  else if s.pastRaise k v then
    if raiseCountOf k ≤ c.raiseCount + 1 then s.raiseCond k else s.setCond k { c with raiseCount := c.raiseCount + 1 }
  else s.setCond k { c with raiseCount := 0 }

/-- The worst-case treatment of a condition at a faulted sample: forced RAISED with counts 0; SLACK keeps its state (R54). -/
def State.forceCond (s : State) (k : CondId) : State :=
  let c := s.mon.cond k
  match k with
  | .slack => s.setCond k { c with raiseCount := 0, clearCount := 0 }
  | _ => if c.raised then s.setCond k ⟨true, 0, 0⟩ else s.raiseCond k

/-- A sample of a channel (R49 to R54). -/
def State.sampleChannel (s : State) (ch : MonChannel) (r : Nat) : State :=
  let c := s.mon.channel ch
  let due := c.due + 100000
  if readingFaulted r then
    let s1 := s.setMonChannel ch { c with raw := r, fault := true, due := due }
    let s2 := if c.fault then s1 else s1.raise .monitor
    (condsOf ch).foldl State.forceCond s2
  else
    let v := scaledValue (s.scale ch).1 (s.scale ch).2 r
    let s1 := s.setMonChannel ch { c with raw := r, value := v, valid := true, fault := false, due := due }
    let s2 := if c.fault then s1.raise .monitor else s1
    (condsOf ch).foldl (fun t k => t.evalCond v k) s2

/-- MONITOR_SAMPLE (R49): the sample timer of the channel expires with this converter reading. -/
def execMonitorSample (ch : MonChannel) (r : BitVec 12) (s : State) : Host.Outcome State Fault Refusal :=
  .next (((s.advance (s.mon.channel ch).due).sampleChannel ch r.toNat).deriveBoarding)

/-- MON rewrites its slots at a geometry commit (R58). -/
def State.rewriteSlots (s : State) : State :=
  let s1 := if s.mon.w1.raised then s.writeWind else s.freeWind
  if s1.mon.frost.raised then s1.writeFrost else s1.setEntry 5 none

/-- A channel's state as READ MONITOR returns it: raw 2, value 2, valid, fault (R61; log 15). -/
def monChannelBytes (c : MonChannelState) : List Byte := be2 c.raw ++ sbe2 c.value ++ flag1 c.valid ++ flag1 c.fault

/-- A condition as READ MONITOR returns it: RAISED 0 or CLEAR 1, raise count, clear count (R61; log 15). -/
def condBytes (c : Cond) : List Byte := be1 (if c.raised then 0 else 1) ++ be1 c.raiseCount ++ be2 c.clearCount

/-- The data of READ MONITOR (R61). -/
def State.monitorData (s : State) : List Byte :=
  monChannelBytes s.mon.wind ++ monChannelBytes s.mon.tension ++ monChannelBytes s.mon.rail
    ++ monChannelBytes s.mon.motor
    ++ condBytes s.mon.w1 ++ condBytes s.mon.w2 ++ condBytes s.mon.frost ++ condBytes s.mon.m1 ++ condBytes s.mon.m2
    ++ condBytes s.mon.slack ++ condBytes s.mon.overtension
    ++ be1 s.geo.active.exposedRuns.length

/-- READ_MONITOR (R61). -/
def execReadMonitor (p : Form NoArgs) (s : State) : Host.Outcome State Fault Refusal :=
  withForm 0x81 p s fun _ => s.reply 0x81 .ok s.monitorData

end Sys2Proof.Machine
end

