-- ==== Sys2Proof/Machine/Geo.lean ====
section
/-! DEFINITION. GEO: the geometry copies, their commit, the datum inputs, HOME and inspection mode (spec 01). -/

namespace Sys2Proof.Machine

/-- The ACTIVE geometry copy is replaced. -/
def State.setActive (s : State) (g : Geometry) : State := { s with geo := { s.geo with active := g } }

/-- The STAGED geometry copy is replaced. -/
def State.setStaged (s : State) (g : Geometry) : State := { s with geo := { s.geo with staged := g } }

/-- WRITE_STAGED_HEADER (R2). -/
def execWriteStagedHeader (p : Form HeaderArgs) (s : State) : Host.Outcome State Fault Refusal :=
  withForm 0x10 p s fun a =>
    (s.setStaged { s.geo.staged with header := some ⟨a.trackLen.toNat, a.count.toNat⟩ }).reply 0x10 .ok []

/-- The side a code of a station field names: 0 NONE, 1 LEFT, 2 RIGHT; none where it is too wide (R190). -/
def stationSideOf (x : Byte) : Option (Option Side) :=
  if x = 0 then some none else (sideOf x).map some

/-- WRITE STAGED STATION on its fields (R2, R190). -/
def writeStagedStation (a : StationArgs) (s : State) : State :=
  let k := a.index.toNat
  let put (x : Option Station) : State :=
    (s.setStaged { s.geo.staged with stations := s.geo.staged.stations.set k x }).reply 0x11 .ok []
  if 3 < k then s.reply 0x11 .badParameter []
  else if a.marker = 1 then put none
  else if a.marker = 0 then
    match stationSideOf a.exitSide, stationSideOf a.boardSide with
    | some x, some y => put (some ⟨a.berth.toNat, x, y, a.alight.toNat, a.board.toNat⟩)
    | _, _ => s.reply 0x11 .badParameter []
  else s.reply 0x11 .badParameter []

/-- WRITE_STAGED_STATION (R2). -/
def execWriteStagedStation (p : Form StationArgs) (s : State) : Host.Outcome State Fault Refusal :=
  withForm 0x11 p s fun a => writeStagedStation a s

/-- WRITE STAGED SEGMENT on its fields (R2, R190). -/
def writeStagedSegment (a : SegmentArgs) (s : State) : State :=
  let k := a.index.toNat
  let put (x : Option Segment) : State :=
    (s.setStaged { s.geo.staged with segments := s.geo.staged.segments.set k x }).reply 0x12 .ok []
  if 47 < k then s.reply 0x12 .badParameter []
  else if a.marker = 1 then put none
  else if a.marker = 0 ∧ a.gradient.toNat ≤ 1023 ∧ (a.exposed = 0 ∨ a.exposed = 1) then
    put (some ⟨a.start.toNat, a.gradient.toNat, a.limit.toNat, a.exposed == 1⟩)
  else s.reply 0x12 .badParameter []

/-- WRITE_STAGED_SEGMENT (R2). -/
def execWriteStagedSegment (p : Form SegmentArgs) (s : State) : Host.Outcome State Fault Refusal :=
  withForm 0x12 p s fun a => writeStagedSegment a s

/-- The answer of READ GEOMETRY for an item that may be absent (R3). -/
def State.readItem (s : State) (data : Option (List Byte)) : State :=
  match data with
  | some d => s.reply 0x13 .ok d
  | none => s.reply 0x13 .notFound []

/-- READ GEOMETRY on its fields (R3, R190); a copy or kind code outside the table is BAD PARAMETER (log 18). -/
def readGeometry (a : ReadGeoArgs) (s : State) : State :=
  let k := a.index.toNat
  let g := if a.copy = 0 then s.geo.active else s.geo.staged
  if 1 < a.copy.toNat then s.reply 0x13 .badParameter []
  else
    match a.kind.toNat with
    | 0 => s.readItem (g.header.map fun h => be4 h.trackLen ++ be1 h.count)
    | 1 => if 3 < k then s.reply 0x13 .badParameter [] else s.readItem ((g.station k).map stationBytes)
    | 2 =>
      if 47 < k then s.reply 0x13 .badParameter [] else s.readItem ((g.segments.getD k none).map segmentBytes)
    | _ => s.reply 0x13 .badParameter []

/-- READ_GEOMETRY (R3). -/
def execReadGeometry (p : Form ReadGeoArgs) (s : State) : Host.Outcome State Fault Refusal :=
  withForm 0x13 p s fun a => readGeometry a s

/-! ### The seven checks (R5) -/

/-- Check 1: a header is present and L lies in range. -/
def checkHeader (g : Geometry) : Bool :=
  match g.header with
  | some h => decide (200000 ≤ h.trackLen ∧ h.trackLen ≤ 4000000)
  | none => false

/-- Neighbours in a list of starts rise strictly. -/
def risingStarts (l : List Segment) : Bool := decide ((l.map (·.start)).Pairwise (· < ·))

/-- Check 2: segments present from index 0 without a gap, starts from 0, rising, below L. -/
def checkSegments (g : Geometry) : Bool :=
  match g.present with
  | [] => false
  | x :: rest =>
    decide (g.segments.take (rest.length + 1) = (x :: rest).map some)
      && x.start == 0 && risingStarts (x :: rest) && (x :: rest).all fun y => decide (y.start < g.len)

/-- Check 3: the terminals are present, at 0 and at L. -/
def checkTerminals (g : Geometry) : Bool :=
  (g.station 0).isSome && (g.station 3).isSome && g.berth 0 == 0 && g.berth 3 == g.len

/-- The station count of a copy, 0 without a header. -/
def Geometry.count (g : Geometry) : Nat :=
  match g.header with
  | some h => h.count
  | none => 0

/-- Check 4: on a four-station line the intermediates are present, in order and symmetric to within 50 mm. -/
def checkIntermediates (g : Geometry) : Bool :=
  g.count != 4
    || ((g.station 1).isSome && (g.station 2).isSome
        && decide (0 < g.berth 1 ∧ g.berth 1 < g.berth 2 ∧ g.berth 2 < g.len)
        && decide (g.len ≤ g.berth 1 + g.berth 2 + 50 ∧ g.berth 1 + g.berth 2 ≤ g.len + 50))

/-- Neighbouring berths lie at least a distance apart. -/
def apart (least : Nat) : List Nat → Bool
  | [] => true
  | [_] => true
  | x :: y :: rest => decide (x + least ≤ y) && apart least (y :: rest)

/-- Check 5: stations in use adjacent in index order lie at least 4 × D apart. -/
def checkSpacing (d : Nat) (g : Geometry) : Bool := apart (4 * d) (g.inUse.map g.berth)

/-- Check 6: at most 5 exposed runs. -/
def checkExposed (g : Geometry) : Bool := decide (g.exposedRuns.length ≤ 5)

/-- A station's fields lie in their ranges (section 1.1). -/
def stationInRange (x : Option Station) : Bool :=
  match x with
  | some y => y.boardSide.isSome && decide (y.alight ≤ 255) && decide (5 ≤ y.board ∧ y.board ≤ 600)
  | none => false

/-- A segment's gradient and limit lie in their ranges (section 1.1). -/
def segmentInRange (x : Segment) : Bool := decide (x.gradient ≤ 800) && decide (500 ≤ x.limit ∧ x.limit ≤ 12000)

/-- Check 7: the station count, and every field of the stations in use and of the present segments in range. -/
def checkRanges (g : Geometry) : Bool :=
  (g.count == 2 || g.count == 4) && (g.inUse.all fun k => stationInRange (g.station k))
    && g.present.all segmentInRange

/-- The first of the seven checks that fails (R5). -/
def failingCheck (d : Nat) (g : Geometry) : Option Nat :=
  if !checkHeader g then some 1
  else if !checkSegments g then some 2
  else if !checkTerminals g then some 3
  else if !checkIntermediates g then some 4
  else if !checkSpacing d g then some 5
  else if !checkExposed g then some 6
  else if !checkRanges g then some 7
  else none

/-- The ACTIVE copy made from a STAGED copy that passes: stations not in use become empty (R6). -/
def Geometry.committed (g : Geometry) : Geometry :=
  { header := g.header
    stations := [0, 1, 2, 3].map fun k => if g.inUse.contains k then g.station k else none
    segments := g.segments }

/-- The position at an accepted commit: UNREFERENCED, pA clamped to the new upper bound (R7). -/
def State.unreference (s : State) (len : Nat) : State :=
  { s with geo := { s.geo with referenced := false, pA := min s.geo.pA ((len + 5000) * 1000) } }

/-- COMMIT GEOMETRY (R5 to R7, R46, R58). -/
def commitGeometry (s : State) : State :=
  if s.haul.line ≠ .parked ∨ s.geo.inspection = false then s.reply 0x14 .wrongState []
  else
    match failingCheck s.datumHalf s.geo.staged with
    | some k => s.reply 0x14 .badGeometry (be1 k)
    | none =>
      let g := s.geo.staged.committed
      (((((s.setActive g).unreference g.len).respan g.len).rewriteSlots).deriveBoarding).reply 0x14 .ok []

/-- COMMIT_GEOMETRY (R6). -/
def execCommitGeometry (p : Form NoArgs) (s : State) : Host.Outcome State Fault Refusal :=
  withForm 0x14 p s fun _ => commitGeometry s

/-! ### Inspection mode and HOME -/

/-- An accepted change of the inspection flag: LINE STATE is raised and a broadcast is queued (R17, R156). -/
def State.setInspection (s : State) (b : Bool) : State :=
  (({ s with
      geo := { s.geo with inspection := b }
      adm := { s.adm with broadcastPending := true } }).raise .lineState).deriveBoarding

/-- ENTER_INSPECTION (R17). -/
def execEnterInspection (p : Form NoArgs) (s : State) : Host.Outcome State Fault Refusal :=
  withForm 0x20 p s fun _ =>
    if s.haul.line = .parked ∧ s.geo.inspection = false then (s.setInspection true).reply 0x20 .ok []
    else s.reply 0x20 .wrongState []

/-- LEAVE_INSPECTION (R17). -/
def execLeaveInspection (p : Form NoArgs) (s : State) : Host.Outcome State Fault Refusal :=
  withForm 0x21 p s fun _ =>
    if s.haul.line ≠ .parked then s.reply 0x21 .wrongState []
    else if s.geo.inspection then (s.setInspection false).reply 0x21 .ok []
    else s.reply 0x21 .ok []

/-- A position in mm becomes the counted position of a REFERENCED car A (R12, R15, R16). -/
def State.fixPosition (s : State) (mm : Nat) : State :=
  { s with geo := { s.geo with referenced := true, pA := mm * 1000 } }

/-- The taken level of a datum input. -/
def State.datumLevel (s : State) (k : Nat) : Bool := s.geo.datum.getD k false

/-- HOME of a station (R16). -/
def home (x : Byte) (s : State) : State :=
  if x ≠ 0 ∧ x ≠ 3 then s.reply 0x22 .badParameter []
  else if s.haul.line ≠ .parked then s.reply 0x22 .wrongState []
  else if !s.hasGeometry then s.reply 0x22 .wrongState []
  else if !s.atRest then s.refuse 0x22 .notAtRest
  else if !(s.datumLevel 0 && s.datumLevel 3) then s.refuse 0x22 .datum
  else (s.fixPosition (if x = 0 then 0 else s.len)).reply 0x22 .ok []

/-- HOME (R16). -/
def execHome (p : Form Byte) (s : State) : Host.Outcome State Fault Refusal :=
  withForm 0x22 p s fun x => home x s

/-! ### Datum edges -/

/-- The taken level of a datum input changes. -/
def State.setDatum (s : State) (k : Nat) (b : Bool) : State :=
  { s with geo := { s.geo with datum := s.geo.datum.set k b } }

/-- A position fault (R14). -/
def State.positionFault (s : State) : State :=
  (({ s with geo := { s.geo with referenced := false } }).raise .positionFault).haltEvent .positionFault

/-- The position, in mm, at which a car entering the datum zone of a berth stands: D short of it in its travel direction.
A value below 0 is held at the counting bound 0 (R9, R12, R15; log 12). -/
def State.datumPoint (s : State) (berth : Nat) : Nat :=
  if s.geo.travelUp then berth - s.datumHalf else berth + s.datumHalf

/-- The deviation of a car at its datum edge: the counted remaining distance in its travel direction less D (R12, R13). -/
def State.deviation (s : State) (c : Car) (berth : Nat) : Int :=
  (if s.carUp c then (berth : Int) - s.pos c else s.pos c - (berth : Int)) - (s.datumHalf : Int)

/-- The distance of a car from a berth (R11). -/
def State.distance (s : State) (c : Car) (berth : Nat) : Nat := (s.pos c - (berth : Int)).natAbs

/-- The car to which a datum edge is attributed, none for a position fault (R11). -/
def State.attribute (s : State) (berth : Nat) : Option Car :=
  let dA := s.distance .a berth
  let dB := s.distance .b berth
  let reach := s.datumHalf + s.corrWindow
  if s.geo.referenced then
    if dA ≤ reach ∧ (reach < dB ∨ dA ≤ dB) then some .a else if dB ≤ reach then some .b else none
  else if dA ≤ dB then some .a
  else some .b

/-- A datum edge of a station in use (R11 to R15). -/
def State.takeDatum (s : State) (berth : Nat) : State :=
  match s.attribute berth, s.geo.referenced with
  | some .a, true =>
    if (s.deviation .a berth).natAbs ≤ s.corrWindow then s.fixPosition (s.datumPoint berth) else s.positionFault
  | some .b, true => if (s.deviation .b berth).natAbs ≤ s.corrWindow then s else s.positionFault
  | some .a, false => s.fixPosition (s.datumPoint berth)
  | some .b, false => s
  | none, _ => s.positionFault

/-- DATUM_EDGE (R10): a level already active gives no edge; an edge of a station not in use, or without an active
geometry, has no effect beyond the level. -/
def execDatumEdge (k : Fin 4) (s : State) : Host.Outcome State Fault Refusal :=
  .next (if s.datumLevel k then s
    else
      let s1 := s.setDatum k true
      if s.hasGeometry && s.inUse k then
        (((s1.takeDatum (s.berth k)).testBerthed .a).testBerthed .b).deriveBoarding
      else s1)

/-- DATUM_LEVEL_INACTIVE (R10). -/
def execDatumLevelInactive (k : Fin 4) (s : State) : Host.Outcome State Fault Refusal :=
  .next (s.setDatum k false)

end Sys2Proof.Machine
end

