-- ==== Sys2Proof/Machine/Haul.lean ====
section
/-! DEFINITION. HAUL: line states, departure, the haul sample (spec 05). -/

namespace Sys2Proof.Machine

/-- UNPARK (R66): the checks in order, then DWELL at car A's station or HALTED with cause OFF BERTH. -/
def unpark (s : State) : State :=
  if s.haul.line ≠ .parked then s.reply 0x23 .wrongState []
  else if !s.hasGeometry then s.reply 0x23 .wrongState []
  else if !s.atRest then s.refuse 0x23 .notAtRest
  else if s.osb.estop then s.refuse 0x23 .estop
  else if s.osb.driveFault then s.refuse 0x23 .driveFault
  else if s.mon.slack.raised then s.refuse 0x23 .slack
  else
    ((match s.current with
      | some k => s.enterDwell k
      | none => s.enterHalted .offBerth).deriveBoarding).reply 0x23 .ok []

/-- UNPARK (R66). -/
def execUnpark (p : Form NoArgs) (s : State) : Host.Outcome State Fault Refusal :=
  withForm 0x23 p s fun _ => unpark s

/-- PARK (R67). -/
def park (s : State) : State :=
  if s.haul.line ≠ .dwell ∧ s.haul.line ≠ .halted then s.reply 0x24 .wrongState []
  else if !s.atRest then s.refuse 0x24 .notAtRest
  else if !s.allLocked then s.refuse 0x24 .doors
  else (s.enterParked.deriveBoarding).reply 0x24 .ok []

/-- PARK (R67). -/
def execPark (p : Form NoArgs) (s : State) : Host.Outcome State Fault Refusal :=
  withForm 0x24 p s fun _ => park s

/-- Every door side of both cars was last reported LOCKED, in fresh reports (R69, R77). -/
def State.doorsReady (s : State) : Bool := s.allLocked && s.fresh .a && s.fresh .b

/-- The drive direction output for a run direction (R64). -/
def State.directionLevel (s : State) (up : Bool) : Bool := if paramGet s.params 0x6B = 1 then !up else up

/-- The entry to STARTING with a new run record (R70, R73): the first v_perm becomes v_sup and is published, the
torque-ready timer starts, the drive direction is set, OSB compares and the rollback test is made (R29, R87). -/
def State.enterStarting (s : State) (r : RunRecord) : State :=
  let s1 := ((s.setRun (some r)).setLine .starting).setHalt .noCause
  let s2 := { s1 with haul := { s1.haul with
    driveDirHigh := s.directionLevel r.up, torqueDue := some (s.now + ms (s.par 0x69)) } }
  let v := s2.permitted
  (((s2.setPerm v).publishSup v).compareRollback).deriveBoarding

/-- START RUN on its fields: the checks of R69 in order, then R70. -/
def startRun (a : RunArgs) (s : State) : State :=
  let k := a.target.toNat
  let v := a.speed.toNat
  if 3 < k ∨ v < 500 ∨ 12000 < v then s.reply 0x30 .badParameter []
  else if s.haul.line ≠ .dwell ∧ s.haul.line ≠ .halted then s.reply 0x30 .wrongState []
  else if !s.inUse k then s.refuse 0x30 .noStation
  else if s.current = some k then s.refuse 0x30 .sameStation
  else if !s.atRest then s.refuse 0x30 .notAtRest
  else if s.haul.line = .dwell ∧ ¬(s.inPhase .a .ready ∧ s.inPhase .b .ready) then s.refuse 0x30 .notReady
  else if !s.linksLive then s.refuse 0x30 .carLink
  else if !s.doorsReady then s.refuse 0x30 .doors
  else
    match s.holds with
    | h :: _ => s.refuse 0x30 h
    | [] =>
      let origin : Origin := if s.haul.line = .dwell then .dwell else .halted
      (s.enterStarting (s.newRun k v origin)).reply 0x30 .ok []

/-- START_RUN (R69). -/
def execStartRun (p : Form RunArgs) (s : State) : Host.Outcome State Fault Refusal :=
  withForm 0x30 p s fun a => startRun a s

/-- STOP RUN (R76). -/
def stopRun (s : State) : State :=
  if s.running then ((s.enterHalted .stopCommand).deriveBoarding).reply 0x31 .ok []
  else if s.haul.line = .halted then s.reply 0x31 .ok []
  else s.reply 0x31 .wrongState []

/-- STOP_RUN (R76). -/
def execStopRun (p : Form NoArgs) (s : State) : Host.Outcome State Fault Refusal :=
  withForm 0x31 p s fun _ => stopRun s

/-- RESUME (R77). -/
def resume (s : State) : State :=
  if s.haul.line ≠ .halted then s.reply 0x32 .wrongState []
  else
    match s.haul.run with
    | none => s.refuse 0x32 .noTarget
    | some r =>
      if s.current = some r.target then s.refuse 0x32 .sameStation
      else if !s.atRest then s.refuse 0x32 .notAtRest
      else if !s.haltGone then s.refuse 0x32 .causePresent
      else if !s.linksLive then s.refuse 0x32 .carLink
      else if !s.doorsReady then s.refuse 0x32 .doors
      else
        match s.holds with
        | h :: _ => s.refuse 0x32 h
        | [] => (s.enterStarting (s.newRun r.target r.speed .halted)).reply 0x32 .ok []

/-- RESUME (R77). -/
def execResume (p : Form NoArgs) (s : State) : Host.Outcome State Fault Refusal :=
  withForm 0x32 p s fun _ => resume s

/-- TORQUE_READY (R73): the input goes active; in STARTING the timer stops, any stop records are discarded and the line
enters MOVING. An input already active goes active only after it has gone inactive. -/
def execTorqueReady (s : State) : Host.Outcome State Fault Refusal :=
  .next (if s.haul.torqueReady then s
    else
      let s1 := { s with haul := { s.haul with torqueReady := true } }
      if s.haul.line = .starting then (((s1.stopTorque).discardRecords).setLine .moving).deriveBoarding else s1)

/-- TORQUE_READY_INACTIVE (R73). -/
def execTorqueReadyInactive (s : State) : Host.Outcome State Fault Refusal :=
  .next { s with haul := { s.haul with torqueReady := false } }

/-- The end of a start that was made from DWELL or HALTED (R74, R75). -/
def State.endStart (s : State) (fromDwell fromHalted : HaltCause) : State :=
  match s.haul.run with
  | some r => if r.origin = .dwell then s.returnToDwell fromDwell else s.enterHalted fromHalted
  | none => s.enterHalted fromHalted

/-- TORQUE_READY_TIMEOUT (R74). -/
def execTorqueReadyTimeout (s : State) : Host.Outcome State Fault Refusal :=
  .next (onExpiry s.haul.torqueDue s fun s1 => (s1.stopTorque.endStart .startFailed .startFailed).deriveBoarding)

/-- The arrival at the target while UNREFERENCED (R79). -/
def State.arrivedUnreferenced (s : State) : Bool :=
  (s.haul.line == .moving || s.haul.line == .intervening) && !s.geo.referenced
    && ((s.haul.run.map fun r => decide ((s.posA - (s.berth r.target : Int)).natAbs ≤ s.window)).getD false)

/-- The overrun condition at a sample in RUNNING (R83). -/
def State.overrunNow (s : State) : Bool :=
  s.running && ((s.haul.run.map s.overrun).getD false)

/-- v_sup at a haul sample (R85). -/
def State.nextSup (s : State) (vPerm : Nat) : Nat := max vPerm (s.haul.vSup - s.fallRate * s.par 0x64 / 1000)

/-- v_dem at a haul sample (R86). -/
def State.nextDem (s : State) (vPerm : Nat) : Nat :=
  if s.haul.line = .moving then min vPerm (s.haul.rampFrom + s.par 0x63 * s.par 0x64 / 1000) else 0

/-- A haul sample (R79 to R87): the unreferenced arrival, then v_perm, v_sup, v_dem, their publication, and OSB's
comparison together with OVERRUN where it is present (log 9). -/
def State.haulStep (s : State) : State :=
  let s1 := if s.arrivedUnreferenced then s.enterHalted .notReferenced else s
  let v := s1.permitted
  let d := s1.nextDem v
  let s2 := (s1.publishSup (s1.nextSup v)).setPerm v
  let s3 := { s2 with haul := { s2.haul with vDem := d, rampFrom := d } }
  if s1.overrunNow then s3.compareWith .overrun else s3.compare

/-- HAUL_SAMPLE (R80): the timer runs on with the period T. -/
def execHaulSample (s : State) : Host.Outcome State Fault Refusal :=
  .next
    (let s1 := s.advance s.haul.haulDue
     let s2 := { s1 with haul := { s1.haul with haulDue := s.haul.haulDue + ms (s.par 0x64) } }
     s2.haulStep.deriveBoarding)

/-- The PWM duty in steps of 1/4,095 of the period for a demand (R64). -/
def pwmSteps (vDem : Nat) : Nat := vDem * 4095 / 13000

/-- PWM_PERIOD (R64): a new period of 1 ms takes the duty from the latest v_dem. -/
def execPwmPeriod (s : State) : Host.Outcome State Fault Refusal :=
  .next
    (let s1 := s.advance s.haul.pwmDue
     { s1 with haul := { s1.haul with pwmDue := s.haul.pwmDue + 1000, pwmDuty := pwmSteps s1.haul.vDem } })

end Sys2Proof.Machine
end

