-- ==== Sys2Proof/Machine/Link.lean ====
section
/-! DEFINITION. LNK: parameters, line status, attention, the resets and the frame outcomes (spec 10). -/

namespace Sys2Proof.Machine

/-! ### Parameters -/

/-- SET PARAMETER on its fields: the checks of R181 in order. -/
def setParameter (a : ParamArgs) (s : State) : State :=
  let n := a.number.toNat
  let v := a.value.toInt
  match paramRow n with
  | none => s.reply 0x03 .badParameter []
  | some r =>
    if v < r.min ∨ r.max < v then s.reply 0x03 .badParameter []
    else if r.classS ∧ s.haul.line ≠ .parked then s.reply 0x03 .wrongState []
    else if !orderingsKept (paramSet s.params n v) n then s.reply 0x03 .badParameter []
    else ({ s with params := paramSet s.params n v }).reply 0x03 .ok []

/-- SET_PARAMETER (R181). -/
def execSetParameter (p : Form ParamArgs) (s : State) : Host.Outcome State Fault Refusal :=
  withForm 0x03 p s fun a => setParameter a s

/-- The class code of a parameter: S 0, O 1 (R182, R189; log 15). -/
def classCode (classS : Bool) : Nat := if classS then 0 else 1

/-- GET PARAMETER of a number: value, class, Min and Max (R182). -/
def getParameter (x : Byte) (s : State) : State :=
  match paramRow x.toNat with
  | none => s.reply 0x04 .badParameter []
  | some r =>
    s.reply 0x04 .ok (sbe4 (paramGet s.params x.toNat) ++ be1 (classCode r.classS) ++ sbe4 r.min ++ sbe4 r.max)

/-- GET_PARAMETER (R182). -/
def execGetParameter (p : Form Byte) (s : State) : Host.Outcome State Fault Refusal :=
  withForm 0x04 p s fun x => getParameter x s

/-! ### Line status (R185, section 11.2.1) -/

/-- Bytes 0 to 14: flags, track length, station count, positions, current station. -/
def State.statusGeo (s : State) : List Byte :=
  be1 (bits [s.hasGeometry, s.geo.referenced, s.geo.travelUp, s.geo.inspection, s.tsr.clockSet])
    ++ be4 s.len ++ be1 ((s.geo.active.header.map (·.count)).getD 0)
    ++ be4 (s.geo.pA / 1000) ++ sbe4 (if s.hasGeometry then s.posB else 0) ++ be1 (s.current.getD 0xFF)

/-- The seven bytes of a speed channel: capture state with bit 7 reverse, speed, period. -/
def channelBytes (c : SpeedChannel) : List Byte :=
  be1 (captureCode c.capture + if c.forward then 0 else 128) ++ be2 c.speed ++ be4 (c.period.getD 0)

/-- Bytes 15 to 35: the two channels, v_meas, rest and slip, clock. -/
def State.statusSpeed (s : State) : List Byte :=
  channelBytes s.spd.rope ++ channelBytes s.spd.drive ++ be2 s.spd.vMeas
    ++ be1 (bits [s.atRest] + 2 * slipCode s.spd.slip + 8 * bits [s.spd.slipDue.isSome])
    ++ be2 s.tsr.day ++ be2 s.tsr.minute

/-- Bytes 38 to 45: the run record, zero when there is none. -/
def runBytes : Option RunRecord → List Byte
  | some r =>
    be1 (bits [true, r.up, r.origin == .halted]) ++ be1 r.target ++ be2 r.speed ++ be2 r.gMax ++ be2 r.aEff
  | none => List.replicate 8 0

/-- The departure holds present as a mask: bits 0 to 3 WIND, MOTOR, TENSION, ALARM. -/
def State.holdBits (s : State) : Nat :=
  bits [s.mon.w2.raised, s.mon.m2.raised, s.mon.overtension.raised, s.alarmHold]

/-- Bytes 36 to 57: the haul. -/
def State.statusHaul (s : State) : List Byte :=
  be1 (lineCode s.haul.line) ++ be1 (haltCode s.haul.haltCause) ++ runBytes s.haul.run
    ++ be1 (s.haul.loadA.getD 0xFF) ++ be1 (s.haul.loadB.getD 0xFF)
    ++ be2 s.haul.vPerm ++ be2 s.haul.vSup ++ be2 s.haul.vDem ++ be1 s.holdBits
    ++ be1 (bits [s.haul.driveEnable, s.haul.driveDirHigh, s.haul.torqueReady]) ++ be2 s.haul.pwmDuty

/-- The trip reset wait: 0 stopped, 1 running, 2 elapsed. -/
def OsbState.waitCode (o : OsbState) : Nat := if o.resetElapsed then 2 else if o.resetDue.isSome then 1 else 0

/-- Bytes 58 to 72: the supervision. -/
def State.statusOsb (s : State) : List Byte :=
  be2 s.osb.t1 ++ be2 s.osb.t2 ++ be2 s.osb.vAbs ++ be2 s.osb.interventions
    ++ be1 ((s.osb.first.map causeCode).getD 0) ++ be1 ((s.osb.fromState.map lineCode).getD 0) ++ be2 s.osb.vTrip
    ++ be2 s.osb.further.toNat
    ++ be1 (bits [s.osb.hold, s.trackBrakeLatched] + 4 * s.osb.waitCode
        + 16 * bits [s.osb.safetyReleased, s.osb.serviceReleased, s.osb.estop, s.osb.driveFault])

/-- Bytes 73 and 74: a car's stop record, phase and link state. -/
def CarState.statusBits (c : CarState) : Nat :=
  (match c.record with
    | some r => 1 + 2 * phaseCode r.phase
    | none => 0) + 16 * bits [c.live]

/-- Bytes 73 to 78: the stops, the monitor, the attention set. -/
def State.statusRest (s : State) : List Byte :=
  be1 s.stp.carA.statusBits ++ be1 s.stp.carB.statusBits
    ++ be1 (bits [s.mon.w1.raised, s.mon.w2.raised, s.mon.frost.raised, s.mon.m1.raised, s.mon.m2.raised,
        s.mon.slack.raised, s.mon.overtension.raised])
    ++ be1 (bits [s.mon.wind.fault, s.mon.tension.fault, s.mon.rail.fault, s.mon.motor.fault])
    ++ be2 s.lnk.attention.toNat

/-- The 79 bytes of the line status record (R185, section 11.2.1). -/
def State.lineStatus (s : State) : List Byte :=
  s.statusGeo ++ s.statusSpeed ++ s.statusHaul ++ s.statusOsb ++ s.statusRest

/-- READ_LINE_STATUS (R185). -/
def execReadLineStatus (p : Form NoArgs) (s : State) : Host.Outcome State Fault Refusal :=
  withForm 0x80 p s fun _ => s.reply 0x80 .ok s.lineStatus

/-! ### Attention -/

/-- The attention set is replaced. -/
def State.setAttention (s : State) (m : BitVec 16) : State := { s with lnk := { s.lnk with attention := m } }

/-- SENSE (R184): the set is returned and emptied. -/
def execSense (p : Form NoArgs) (s : State) : Host.Outcome State Fault Refusal :=
  withForm 0x82 p s fun _ => (s.setAttention 0).reply 0x82 .ok (be2 s.lnk.attention.toNat)

/-! ### Soft reset -/

/-- HAUL's part of a soft reset beyond the entry to PARKED (R90). -/
def State.resetHaul (s : State) : State :=
  { s with haul := { s.haul with loadA := none, loadB := none, vDem := 0, rampFrom := 0, pwmDuty := 0 } }

/-- OSB's part of a soft reset beyond the entry to PARKED (R111). -/
def State.resetOsb (s : State) : State :=
  { s with osb := { s.osb with
      interventions := 0, first := none, fromState := none, vTrip := 0, further := 0, hold := true, resetDue := none,
      resetElapsed := false } }

/-- STP's part of a soft reset: both pending alarms are cleared; the entry to PARKED has discarded the stop records and
ended the evacuations (R135). -/
def State.resetStp (s : State) : State :=
  { s with stp :=
      { carA := { s.stp.carA with pendingAlarm := false }, carB := { s.stp.carB with pendingAlarm := false } } }

/-- An accepted soft reset at every block (R186). The claims go first, so that no memory is made of them (R170). -/
def State.softReset (s : State) : State :=
  ((((((s.clearClaims).enterParked).resetHaul).resetOsb).resetStp).deriveBoarding).setAttention
    (attentionMask .softReset)

/-- SOFT RESET (R186). -/
def softReset (s : State) : State :=
  match s.haul.line with
  | .parked => s.softReset.reply 0x83 .ok []
  | .dwell => if s.atRest then s.softReset.reply 0x83 .ok [] else s.refuse 0x83 .notAtRest
  | .halted => if s.atRest then s.softReset.reply 0x83 .ok [] else s.refuse 0x83 .notAtRest
  | .starting => s.reply 0x83 .wrongState []
  | .moving => s.reply 0x83 .wrongState []
  | .intervening => s.reply 0x83 .wrongState []
  | .tripped => s.reply 0x83 .wrongState []

/-- SOFT_RESET (R186). -/
def execSoftReset (p : Form NoArgs) (s : State) : Host.Outcome State Fault Refusal :=
  withForm 0x83 p s fun _ => softReset s

/-! ### Frame outcomes (R177, R179) -/

/-- A result of the link's own replaces the buffer at once, no command executing (R177). -/
def State.setBuffer (s : State) (rc : ResultCode) (code : Byte) : State :=
  { s with lnk := { s.lnk with buffer := some ⟨rc, code, []⟩ } }

/-- The BUSY result is written into the buffer, where the result of the command that is executing replaces it when its
execution ends (R179). -/
def State.setBusy (s : State) (code : Byte) : State :=
  { s with lnk := { s.lnk with buffer := some ⟨.busy, code, []⟩ } }

/-- FRAME_ERROR (R177). -/
def execFrameError (code : Byte) (s : State) : Host.Outcome State Fault Refusal := .next (s.setBuffer .frameError code)

/-- INVALID (R177). -/
def execInvalid (code : Byte) (s : State) : Host.Outcome State Fault Refusal := .next (s.setBuffer .invalid code)

/-- BUSY (R177, R179): a frame released while a command is executing. With no command executing no frame is refused BUSY,
and the row changes nothing (log 4). -/
def execBusy (code : Byte) (s : State) : Host.Outcome State Fault Refusal :=
  .next (if s.executing then s.setBusy code else s)

/-! ### Power-on reset -/

/-- A channel at power-on reset with its sampled levels (R19, R24). -/
def SpeedChannel.sampled (a b : Bool) : SpeedChannel := { SpeedChannel.powerOn with levelA := a, levelB := b }

/-- The state right after power-on reset with the levels sampled at the pins (R187 and the reset rules of every block);
an emergency-stop input already active is handed to OSB at the end of reset (R97, R100). -/
def State.powerOn (x : Levels) : State :=
  let r := State.reset
  let s :=
    { r with
      geo := { r.geo with datum := [x.datum0, x.datum1, x.datum2, x.datum3] }
      spd := { r.spd with
        rope := SpeedChannel.sampled x.ropeA x.ropeB, drive := SpeedChannel.sampled x.driveA x.driveB }
      haul := { r.haul with torqueReady := x.torqueReady }
      osb := { r.osb with estop := x.estop, driveFault := x.driveFault } }
  if x.estop then s.takeCause .estop else s

/-- POWER_ON_RESET (R187): the commands that wait, and the index of the model's free choices, are no state of the
device. -/
def execPowerOnReset (x : Levels) (s : State) : Host.Outcome State Fault Refusal :=
  .next { State.powerOn x with choices := s.choices, pending := s.pending }

end Sys2Proof.Machine
end

