-- ==== Sys2Proof/Machine/Speed.lean ====
section
/-! DEFINITION. SPD: the speed channels (spec 02), with the count of the rope channel in GEO (R8, R9) and what leaving
and reaching rest does at the other blocks. -/

namespace Sys2Proof.Machine

/-- A channel's state is replaced. -/
def State.setChan (s : State) (ch : Channel) (c : SpeedChannel) : State :=
  match ch with
  | .rope => { s with spd := { s.spd with rope := c } }
  | .drive => { s with spd := { s.spd with drive := c } }

/-- The upper counting bound in µm (R9). -/
def State.countBound (s : State) : Nat := if s.hasGeometry then (s.len + 5000) * 1000 else 4005000 * 1000

/-- GEO takes a counting edge of the rope channel: pA moves by the rope distance per pulse within the counting bounds,
and the travel direction is that of the edge (R8, R9). -/
def State.countRope (s : State) (up : Bool) : State :=
  { s with geo := { s.geo with
      travelUp := up
      pA := if up then min (s.geo.pA + s.par 0x20) s.countBound else s.geo.pA - s.par 0x20 } }

/-- The parameter number of a channel's distance per pulse (R22). -/
def pulseParam : Channel → Nat
  | .rope => 0x20
  | .drive => 0x21

/-- The speed of a period in µs, with the distance per pulse in µm (R22). -/
def channelSpeed (distance period : Nat) : Nat := min 13000 (distance * 1000 / period)

/-- A channel after a counting edge taken at a time (R20, R21): direction, last-edge time and standstill timer in every
case; a period and a speed from the second edge on. -/
def SpeedChannel.onEdge (c : SpeedChannel) (forward : Bool) (now distance timeout : Nat) : SpeedChannel :=
  let c1 := { c with forward := forward, lastEdge := now, standDue := some (now + ms timeout) }
  match c.capture with
  | .standstill => { c1 with capture := .starting, period := none, speed := 0 }
  | .starting =>
    { c1 with capture := .measuring, period := some (now - c.lastEdge), speed := channelSpeed distance (now - c.lastEdge) }
  | .measuring =>
    { c1 with capture := .measuring, period := some (now - c.lastEdge), speed := channelSpeed distance (now - c.lastEdge) }

/-- A channel that enters STANDSTILL: speed 0, no period, the direction kept (R23). -/
def SpeedChannel.stand (c : SpeedChannel) : SpeedChannel :=
  { c with capture := .standstill, period := none, speed := 0, standDue := none }

/-- Δ = v_drive − v_rope (R27). -/
def SpdState.slipDiff (p : SpdState) : Int := (p.drive.speed : Int) - (p.rope.speed : Int)

/-- The slip test at a publication (R27, R28). -/
def State.slipTest (s : State) : State :=
  let d := s.spd.slipDiff
  let pos := decide (0 < d)
  let start := some (s.now + ms (s.par 0x25))
  if d.natAbs ≤ s.par 0x24 then { s with spd := { s.spd with slip := .absent, slipDue := none } }
  else
    match s.spd.slip, s.spd.slipDue with
    | .absent, none => { s with spd := { s.spd with slipDue := start, slipPositive := pos } }
    | .absent, some _ =>
      if s.spd.slipPositive = pos then s
      else { s with spd := { s.spd with slipDue := start, slipPositive := pos } }
    | .slip, _ => s
    | .disagree, _ => s

/-- A publication of a channel speed: v_meas, the slip test, OSB's comparison, and on the ROPE channel the rollback test
(R22, R25, R27, R29). -/
def State.publish (s : State) (ch : Channel) : State :=
  let s1 := ({ s with spd := { s.spd with vMeas := max s.spd.rope.speed s.spd.drive.speed } }).slipTest
  match ch with
  | .rope => s1.compareRollback
  | .drive => s1.compare

/-- The line leaves rest at an edge: the trip reset wait falls back (R105), every release in force is withdrawn (R127,
R132), and the door causes of R99 are handed to OSB, from the state as it was before the edge. -/
def State.leaveRest (s before : State) : State :=
  let s1 := ({ s with osb := { s.osb with resetDue := none, resetElapsed := false } }).endEvacuations
  let doorOpen := before.haul.line == .halted && !before.allLocked
  match doorOpen, before.anyRelease with
  | true, true => s1.takeBoth .doorOpen .doorMotion
  | true, false => s1.takeCause .doorOpen
  | false, true => s1.takeCause .doorMotion
  | false, false => s1

/-- A counting edge is taken (R20, R21, R26). -/
def State.takeCountingEdge (s : State) (ch : Channel) (forward : Bool) : State :=
  let s1 := if ch = .rope then s.countRope forward else s
  let c := s1.chan ch
  let s2 := s1.setChan ch (c.onEdge forward s.now (s.par (pulseParam ch)) (s.par 0x22))
  let s3 := { s2 with spd := { s2.spd with restDue := none, restSince := none } }
  let s4 := if s.atRest then s3.leaveRest s else s3
  let s5 := if c.capture = .standstill then s4 else s4.publish ch
  s5.deriveBoarding

/-- Less than 20 µs have passed since the previous taken edge of a phase (R19). The first candidate after power-on reset
has no previous taken edge and is taken at once, which is the model's choice (log 39). -/
def tooSoon (last : Option Nat) (now : Nat) : Bool :=
  match last with
  | some t => decide (now < t + 20)
  | none => false

/-- A raw change of a phase to a level at a time (R19): no candidate when it is the taken level, discarded within 20 µs
of the previous taken edge of that phase, and otherwise taken; a taken edge of phase A with phase B low is a counting
edge, rising forward and falling in reverse. -/
def State.phaseChange (s : State) (ch : Channel) (ph : QuadPhase) (level : Bool) (stamp : Nat) : State :=
  let s1 := s.advance stamp
  let c := s1.chan ch
  match ph with
  | .a =>
    if level = c.levelA then s1
    else if tooSoon c.edgeA s1.now then s1
    else
      let s2 := s1.setChan ch { c with levelA := level, edgeA := some s1.now }
      if c.levelB then s2 else s2.takeCountingEdge ch level
  | .b =>
    if level = c.levelB then s1
    else if tooSoon c.edgeB s1.now then s1
    else s1.setChan ch { c with levelB := level, edgeB := some s1.now }

/-- COUNTING_EDGE (R19 to R21). -/
def execCountingEdge (ch : Channel) (level : Bool) (stamp : Nat) (s : State) : Host.Outcome State Fault Refusal :=
  .next (s.phaseChange ch .a level stamp)

/-- TAKEN_PHASE_EDGE (R19). -/
def execTakenPhaseEdge (ch : Channel) (ph : QuadPhase) (level : Bool) (stamp : Nat) (s : State) :
    Host.Outcome State Fault Refusal :=
  .next (s.phaseChange ch ph level stamp)

/-- The rest timer starts when the second channel enters STANDSTILL (R26). -/
def State.startRestTimer (s : State) : State :=
  if s.spd.rope.capture = .standstill ∧ s.spd.drive.capture = .standstill then
    { s with spd := { s.spd with restDue := some (s.now + ms (s.par 0x23)) } }
  else s

/-- STANDSTILL_TIMEOUT (R23): speed 0 is published. -/
def execStandstillTimeout (ch : Channel) (s : State) : Host.Outcome State Fault Refusal :=
  .next (onExpiry (s.chan ch).standDue s fun s1 =>
    (((s1.setChan ch (s1.chan ch).stand).publish ch).startRestTimer).deriveBoarding)

/-- The line's coming to rest at HAUL (R78). -/
def State.comeToRest (s : State) : State :=
  match s.haul.line, s.current with
  | .moving, some k => s.enterDwell k
  | .intervening, some k => s.enterDwell k
  | .halted, some k => s.enterDwell k
  | .moving, none => s.enterHalted .offBerth
  | .intervening, none => s.enterHalted .offBerth
  | _, _ => s

/-- REST_CONFIRM (R26): the flag is set; HAUL takes the coming to rest (R78), OSB starts the trip reset wait while TRIPPED
(R105), STP tests its records (R120). -/
def execRestConfirm (s : State) : Host.Outcome State Fault Refusal :=
  .next (onExpiry s.spd.restDue s fun s1 =>
    let s2 := { s1 with spd := { s1.spd with restDue := none, restSince := some s1.now } }
    let s3 := if s2.haul.line = .tripped then s2.beginWait else s2.comeToRest
    ((s3.testBerthed .a).testBerthed .b).deriveBoarding)

/-- SLIP_TIMER_EXPIRY (R28). -/
def execSlipTimerExpiry (s : State) : Host.Outcome State Fault Refusal :=
  .next (onExpiry s.spd.slipDue s fun s1 =>
    let s2 := { s1 with spd := { s1.spd with
      slipDue := none, slip := if s1.spd.slipPositive then .slip else .disagree } }
    (s2.takeCause (if s1.spd.slipPositive then .slip else .disagree)).deriveBoarding)

end Sys2Proof.Machine
end

