-- ==== Sys2Proof/Machine/Stops.lean ====
section
/-! DEFINITION. STP: car links, door reports, the phases of a stop, alarms, evacuation (spec 07). -/

namespace Sys2Proof.Machine

/-! ### Car links -/

/-- The next sequence of a link: 0 first, then one more than the last, 255 being followed by 0 (R112). -/
def nextSeq (kept : List Byte) : Byte :=
  match kept with
  | [] => 0
  | x :: _ => x + 1

/-- The downlink frame of a car (R112, section 11.6). -/
def State.downlinkFrame (s : State) (c : Car) : List Byte :=
  let l := s.released c .left
  let r := s.released c .right
  withCrc (be1 (carCode c + 1) ++ [nextSeq (s.car c).kept] ++ be1 (bits [l, !l, r, !r, s.osb.hold])
    ++ be1 (lineCode s.haul.line))

/-- One more frame of the car has been built since a close was commanded (R119). -/
def Close.frameBuilt (x : Close) : Close := { x with frames := min 4 (x.frames + 1) }

/-- DOWNLINK (R112): a frame is built and sent. -/
def execDownlink (c : Car) (s : State) : Host.Outcome State Fault Refusal :=
  .next
    (let s1 := s.advance (s.car c).downDue
     let x := s1.car c
     s1.setCar c
      { x with
        downDue := x.downDue + 50000
        kept := (nextSeq x.kept :: x.kept).take 4
        lastFrame := s1.downlinkFrame c
        record := x.record.map fun r => { r with close := r.close.map Close.frameBuilt } })

/-- A valid uplink on a link: LIVE, its timer restarted, the last report replaced (R114, R115). -/
def State.takeReport (s : State) (c : Car) (r : Report) : State :=
  let x := s.car c
  let s1 := s.setCar c { x with live := true, linkDue := some (s.now + ms (s.par 0x80)), report := some r }
  let changed := r.unitFault != ((x.report.map (·.unitFault)).getD false)
  if !x.live || changed then s1.raise .carLink else s1

/-- The position of an echoed sequence among the kept ones, newest first. -/
def echoIndex (kept : List Byte) (echo : Byte) : Nat := kept.findIdx fun x => x == echo

/-- The sides that a close awaits are reported LOCKED (R119, R121, R123). -/
def State.awaitedLocked (s : State) (c : Car) (r : StopRecord) (x : Close) : Bool :=
  if x.exitOnly then
    match (s.geo.active.station r.station).bind Station.separateExit with
    | some d => (s.car c).sideLocked d
    | none => false
  else (s.car c).locked

/-- A close of the car's record is confirmed by the report just taken: it echoes a frame built after the close was
commanded and reports the awaited sides LOCKED (R119). -/
def State.confirms (s : State) (c : Car) (r : StopRecord) (x : Close) : Bool :=
  match (s.car c).report with
  | some rep => decide (echoIndex (s.car c).kept rep.echo < x.frames) && s.awaitedLocked c r x
  | none => false

/-- The exit close of an ALIGHTING record is confirmed: at a terminal the admitted-run count returns to 0, and the record
enters BOARDING (R118, R121). -/
def State.alightDone (s : State) (c : Car) (r : StopRecord) : State :=
  let s1 := if r.station = 0 ∨ r.station = 3 then s.setCar c { s.car c with admitted := 0 } else s
  s1.enterBoarding c

/-- The phases of a car's stop record act on the report just taken (R119 to R124). -/
def State.recordUplink (s : State) (c : Car) : State :=
  match s.record c with
  | none => s
  | some r =>
    match r.phase, r.close with
    | .arrived, _ => s.testArrived c
    | .alighting, some x => if s.confirms c r x then s.alightDone c r else s
    | .closing, some x =>
      if x.confirmed then
        if (s.car c).locked then s.tryReady c
        else s.modRecord c fun q =>
          { q with close := some { x with confirmed := false }, closeDue := some (s.now + sec (s.par 0x82)) }
      else if s.confirms c r x then
        (s.modRecord c fun q => { q with close := some { x with confirmed := true }, closeDue := none }).tryReady c
      else s
    | .ready, _ =>
      if !(s.car c).locked && (s.haul.line == .dwell || s.haul.line == .tripped) then s.enterClosing c else s
    | .alighting, none => s
    | .closing, none => s
    | .boarding, _ => s

/-- A report with a side other than LOCKED acts on the line: it ends a start (R75) or hands DOOR OPEN (R99). -/
def State.lineUplink (s : State) (c : Car) : State :=
  if (s.car c).locked then s
  else
    match s.haul.line with
    | .starting => s.endStart .noCause .doors
    | .moving => s.takeCause .doorOpen
    | .intervening => s.takeCause .doorOpen
    | .halted => if s.atRest then s else s.takeCause .doorOpen
    | .parked => s
    | .dwell => s
    | .tripped => s

/-- A passenger alarm is recorded (R128). -/
def State.takeAlarm (s : State) (c : Car) : State :=
  let s1 := s.raise .passengerAlarm
  if (s.haul.line = .dwell ∨ s.haul.line = .tripped) ∧ (s.record c).isSome then
    s1.modRecord c fun r => { r with alarm := true }
  else s1.setCar c { s1.car c with pendingAlarm := true }

/-- The report of a valid uplink is acted on (R114, R115, R128). -/
def State.actUplink (s : State) (c : Car) (r : Report) : State :=
  let newAlarm := r.alarm && !(((s.car c).report.map (·.alarm)).getD false)
  let s1 := ((s.takeReport c r).lineUplink c).recordUplink c
  if newAlarm then s1.takeAlarm c else s1

/-- UPLINK (R113): a frame that is not valid is discarded and has no effect. -/
def execUplink (c : Car) (charsOk : Bool) (frame : List Byte) (s : State) : Host.Outcome State Fault Refusal :=
  .next (match reportOf c (s.car c).kept s.now charsOk frame with
    | some r => (s.actUplink c r).deriveBoarding
    | none => s)

/-- CAR_LINK_TIMEOUT (R114). -/
def execCarLinkTimeout (c : Car) (s : State) : Host.Outcome State Fault Refusal :=
  .next (onExpiry (s.car c).linkDue s fun s1 =>
    let s2 := s1.setCar c { s1.car c with live := false, linkDue := none, evacLeft := false, evacRight := false }
    ((s2.raise .carLink).haltEvent .carLink).deriveBoarding)

/-! ### Deadlines of a stop record -/

/-- A deadline of a car's record in a phase. -/
def State.phaseDue (s : State) (c : Car) (p : StopPhase) : Option Nat :=
  match s.record c with
  | some r => if r.phase = p then r.phaseDue else none
  | none => none

/-- DOOR_FAULT (R119): the close deadline expires before a confirmation. -/
def execDoorFault (c : Car) (s : State) : Host.Outcome State Fault Refusal :=
  .next (onExpiry ((s.record c).bind (·.closeDue)) s fun s1 =>
    (s1.modRecord c fun r => { r with doorFault := true, closeDue := none }).raise .doorFault)

/-- ALIGHT_TIME_EXPIRY (R121): the exit close is made. -/
def execAlightTimeExpiry (c : Car) (s : State) : Host.Outcome State Fault Refusal :=
  .next (onExpiry (s.phaseDue c .alighting) s fun s1 => s1.exitClose c)

/-- BOARD_TIME_EXPIRY (R122): the record enters CLOSING. -/
def execBoardTimeExpiry (c : Car) (s : State) : Host.Outcome State Fault Refusal :=
  .next (onExpiry (s.phaseDue c .boarding) s fun s1 => (s1.enterClosing c).deriveBoarding)

/-- REOPEN_TIME_EXPIRY (R125): the reopen ends with a commanded close. -/
def execReopenTimeExpiry (c : Car) (s : State) : Host.Outcome State Fault Refusal :=
  .next (onExpiry (s.phaseDue c .closing) s fun s1 =>
    (s1.modRecord c fun r => { r with reopening := false, phaseDue := none }).commandClose c false)

/-! ### Commands -/

/-- ADVANCE acts on one car's record by its phase (R122). -/
def State.advanceRecord (s : State) (c : Car) : State :=
  match s.record c with
  | none => s
  | some r =>
    match r.phase with
    | .alighting => if r.close.isNone then s.exitClose c else s
    | .boarding => s.enterClosing c
    | .arrived => s
    | .closing => s
    | .ready => s

/-- The phases of both records, as ADVANCE returns them (R122; log 15). -/
def State.phaseData (s : State) : List Byte :=
  be1 (((s.record .a).map fun r => phaseCode r.phase).getD 0)
    ++ be1 (((s.record .b).map fun r => phaseCode r.phase).getD 0)

/-- ADVANCE of a selector (R122). -/
def advance (x : Byte) (s : State) : State :=
  let finish (t : State) : State := (t.deriveBoarding).reply 0x40 .ok t.phaseData
  if 2 < x.toNat then s.reply 0x40 .badParameter []
  else if !s.hasRecords then s.reply 0x40 .wrongState []
  else if x = 0 then finish (s.advanceRecord .a)
  else if x = 1 then finish (s.advanceRecord .b)
  else finish ((s.advanceRecord .a).advanceRecord .b)

/-- ADVANCE (R122). -/
def execAdvance (p : Form Byte) (s : State) : Host.Outcome State Fault Refusal :=
  withForm 0x40 p s fun x => advance x s

/-- REOPEN DOORS on its fields (R125). -/
def reopenDoors (a : ReopenArgs) (s : State) : State :=
  match carOf a.car with
  | none => s.reply 0x41 .badParameter []
  | some c =>
    if a.time.toNat < 1 ∨ 60 < a.time.toNat then s.reply 0x41 .badParameter []
    else if !s.inPhase c .closing || s.geo.inspection then s.reply 0x41 .wrongState []
    else
      (s.modRecord c fun r =>
        { r with doorFault := false, closeDue := none, close := none, reopening := true,
                 phaseDue := some (s.now + sec a.time.toNat) }).reply 0x41 .ok []

/-- REOPEN_DOORS (R125). -/
def execReopenDoors (p : Form ReopenArgs) (s : State) : Host.Outcome State Fault Refusal :=
  withForm 0x41 p s fun a => reopenDoors a s

/-- A car's alarm flag and pending alarm are cleared (R129). -/
def State.clearAlarm (s : State) (c : Car) : State :=
  s.setCar c
    { s.car c with
      pendingAlarm := false, record := (s.car c).record.map fun r => { r with alarm := false } }

/-- ACK_ALARM (R129). -/
def execAckAlarm (p : Form Byte) (s : State) : Host.Outcome State Fault Refusal :=
  withForm 0x42 p s fun x =>
    match carOf x with
    | some c => (s.clearAlarm c).reply 0x42 .ok []
    | none => s.reply 0x42 .badParameter []

/-- The evacuation release of a side starts or ends. -/
def State.setEvac (s : State) (c : Car) (d : Side) (b : Bool) : State :=
  match d with
  | .left => s.setCar c { s.car c with evacLeft := b }
  | .right => s.setCar c { s.car c with evacRight := b }

/-- The line-at-rest flag has been set without a break for at least 5 s (R131). -/
def State.restedFiveSeconds (s : State) : Bool :=
  match s.spd.restSince with
  | some t => decide (t + 5000000 ≤ s.now)
  | none => false

/-- EVACUATE on its fields (R131). -/
def evacuate (a : CarSideArgs) (s : State) : State :=
  match carOf a.car, sideOf a.side with
  | some c, some d =>
    if s.haul.line ≠ .halted ∧ s.haul.line ≠ .tripped then s.reply 0x43 .wrongState []
    else if !s.restedFiveSeconds then s.refuse 0x43 .notAtRest
    else if !(s.car c).live then s.refuse 0x43 .carLink
    else (s.setEvac c d true).reply 0x43 .ok []
  | _, _ => s.reply 0x43 .badParameter []

/-- EVACUATE (R131). -/
def execEvacuate (p : Form CarSideArgs) (s : State) : Host.Outcome State Fault Refusal :=
  withForm 0x43 p s fun a => evacuate a s

/-- END_EVACUATION (R132). -/
def execEndEvacuation (p : Form CarSideArgs) (s : State) : Host.Outcome State Fault Refusal :=
  withForm 0x44 p s fun a =>
    match carOf a.car, sideOf a.side with
    | some c, some d => (s.setEvac c d false).reply 0x44 .ok []
    | _, _ => s.reply 0x44 .badParameter []

/-! ### READ STOP RECORD -/

/-- A deadline as the time remaining in whole ms, zero when it is absent or overdue (R133, R189; log 40). -/
def State.remainingBytes (s : State) (due : Option Nat) : List Byte :=
  be4 ((due.map fun t => wholeMs (t - s.now)).getD 0)

/-- Which optional fields of a stop record are present: bit 0 W_open, bit 1 the phase deadline, bit 2 the close deadline
(R116, R189; log 15). -/
def StopRecord.presence (r : StopRecord) : Nat := bits [r.wOpen.isSome, r.phaseDue.isSome, r.closeDue.isSome]

/-- A stop record as READ STOP RECORD returns it, the presence byte of its optional fields before them all (R116, R133,
R189; log 15). -/
def State.recordData (s : State) (c : Car) (r : StopRecord) : List Byte :=
  be1 (StopRecord.presence r) ++ be1 (carCode c) ++ be1 r.station ++ be1 (phaseCode r.phase) ++ be2 (r.wOpen.getD 0)
    ++ be1 r.quota ++ be1 r.boarded ++ be1 r.held ++ be1 r.late ++ flag1 r.alarm ++ flag1 r.doorFault
    ++ flag1 r.suspended ++ s.remainingBytes r.phaseDue ++ s.remainingBytes r.closeDue
    ++ flag1 ((r.close.map fun x => !x.confirmed).getD false)

/-- The time since an event in whole ms (R189; log 40); what the four bytes carry where it does not fit into them is free
(log 42). -/
def State.sinceBytes (s : State) (t : Nat) : List Byte :=
  let age := wholeMs (s.now - t)
  if age < 2 ^ 32 then be4 age else be4 (Config.longReportAge age).toNat

/-- A last report as READ STOP RECORD returns it (R115, R133; log 15), with the time since it was taken. -/
def State.reportData (s : State) (c : Car) (r : Report) : List Byte :=
  be1 (doorCode r.left) ++ be1 (doorCode r.right) ++ flag1 r.trackBrake ++ flag1 r.alarm ++ flag1 r.loadValid
    ++ flag1 r.unitFault ++ be2 r.load ++ s.sinceBytes r.takenAt ++ flag1 (s.fresh c)

/-- A group that may be absent: a presence byte and its bytes, zeros when absent (R189). -/
def groupBytes (size : Nat) : Option (List Byte) → List Byte
  | some l => 1 :: l
  | none => 0 :: List.replicate size 0

/-- The data of READ STOP RECORD (R133). -/
def State.stopData (s : State) (c : Car) : List Byte :=
  let x := s.car c
  groupBytes 22 (x.record.map (s.recordData c)) ++ be1 (if x.live then 0 else 1)
    ++ groupBytes 13 (x.report.map (s.reportData c))
    ++ flag1 (s.released c .left) ++ flag1 x.evacLeft ++ flag1 (s.released c .right) ++ flag1 x.evacRight
    ++ flag1 x.pendingAlarm ++ be2 x.admitted ++ [x.kept.headD 0]

/-- READ_STOP_RECORD (R133). -/
def execReadStopRecord (p : Form Byte) (s : State) : Host.Outcome State Fault Refusal :=
  withForm 0x45 p s fun x =>
    match carOf x with
    | some c => s.reply 0x45 .ok (s.stopData c)
    | none => s.reply 0x45 .badParameter []

end Sys2Proof.Machine
end

