-- ==== Sys2Proof/Machine/Supervision.lean ====
section
/-! DEFINITION. OSB: the hardwired inputs, the commanded trip and the trip reset (spec 06). -/

namespace Sys2Proof.Machine

/-- EMERGENCY_STOP (R98): OSB takes COMMANDED. -/
def execEmergencyStop (p : Form NoArgs) (s : State) : Host.Outcome State Fault Refusal :=
  withForm 0x33 p s fun _ => ((s.takeCause .commanded).deriveBoarding).reply 0x33 .ok []

/-- EMERGENCY_STOP_INPUT (R97): a change of the taken level to active hands E-STOP to OSB. -/
def execEmergencyStopInput (level : Bool) (s : State) : Host.Outcome State Fault Refusal :=
  .next (if level = s.osb.estop then s
    else
      let s1 := { s with osb := { s.osb with estop := level } }
      if level then (s1.takeCause .estop).deriveBoarding else s1)

/-- DRIVE_FAULT_INPUT (R97): a change of the taken level to active hands DRIVE FAULT to OSB. -/
def execDriveFaultInput (level : Bool) (s : State) : Host.Outcome State Fault Refusal :=
  .next (if level = s.osb.driveFault then s
    else
      let s1 := { s with osb := { s.osb with driveFault := level } }
      if level then (s1.takeCause .driveFault).deriveBoarding else s1)

/-- TRIP_RESET_TIME (R105): the elapsed flag is set. -/
def execTripResetTime (s : State) : Host.Outcome State Fault Refusal :=
  .next (onExpiry s.osb.resetDue s fun s1 =>
    { s1 with osb := { s1.osb with resetDue := none, resetElapsed := true } })

/-- The first of the five checks of R106 that fails. -/
def State.resetBlocked (s : State) : Option Condition :=
  if !s.osb.resetElapsed then some .restTime
  else
    match s.osb.first.filter fun c => !s.causeAbsent c with
    | some c => some (.cause c)
    | none =>
      match allCauses.find? fun c => causeIn s.osb.further c && !s.causeAbsent c with
      | some c => some (.cause c)
      | none =>
        if s.trackBrakeLatched && !(s.stp.carA.railBrakesOff && s.stp.carB.railBrakesOff) then some .trackBrake
        else if s.osb.estop then some .estop
        else none

/-- The latch, the hold and the wait after an accepted RESET TRIP (R107). -/
def State.clearLatch (s : State) : State :=
  { s with osb := { s.osb with
      first := none, fromState := none, vTrip := 0, further := 0, hold := true, resetDue := none,
      resetElapsed := false } }

/-- Car A's stop record names a station. -/
def State.recordNames (s : State) (k : Nat) : Bool := ((s.record .a).map fun r => r.station == k).getD false

/-- The entry to DWELL that keeps the stop records of a trip (R107). -/
def State.keepRecords (s : State) : State :=
  (((((((s.setLine .dwell).dwellSpeeds).setSuspended false).moveAlarm .a).moveAlarm .b).testBerthed .a).testBerthed .b)

/-- The exit from TRIPPED (R107). -/
def State.leaveTripped (s : State) : State :=
  let s1 := s.clearLatch
  match s1.current with
  | some k =>
    if s1.recordNames k then s1.keepRecords
    else (((s1.setLine .dwell).dwellSpeeds).discardRecords).createRecords k
  | none => s1.enterHalted .offBerth

/-- RESET TRIP (R106 to R108). -/
def resetTrip (s : State) : State :=
  match s.haul.line with
  | .tripped =>
    match s.resetBlocked with
    | some c => s.refuse 0x34 c
    | none => (s.leaveTripped.deriveBoarding).reply 0x34 .ok []
  | .parked =>
    if s.osb.estop then s.refuse 0x34 .estop
    else ({ s with osb := { s.osb with further := 0 } }).reply 0x34 .ok []
  | .dwell => s.reply 0x34 .wrongState []
  | .starting => s.reply 0x34 .wrongState []
  | .moving => s.reply 0x34 .wrongState []
  | .intervening => s.reply 0x34 .wrongState []
  | .halted => s.reply 0x34 .wrongState []

/-- RESET_TRIP (R106). -/
def execResetTrip (p : Form NoArgs) (s : State) : Host.Outcome State Fault Refusal :=
  withForm 0x34 p s fun _ => resetTrip s

end Sys2Proof.Machine
end

