-- ==== Sys2Proof/Machine/Dispatch.lean ====
section
/-! DEFINITION. The dispatch: one arm for each command, each one call of its meaning. -/

namespace Sys2Proof.Machine

/-- The effect of a command on everything but the queue. -/
def exec (i : Instr) (s : State) : Host.Outcome State Fault Refusal :=
  match i with
  | .setClock p => Sys2Proof.Machine.execSetClock p s
  | .getClock p => Sys2Proof.Machine.execGetClock p s
  | .setParameter p => Sys2Proof.Machine.execSetParameter p s
  | .getParameter p => Sys2Proof.Machine.execGetParameter p s
  | .writeStagedHeader p => Sys2Proof.Machine.execWriteStagedHeader p s
  | .writeStagedStation p => Sys2Proof.Machine.execWriteStagedStation p s
  | .writeStagedSegment p => Sys2Proof.Machine.execWriteStagedSegment p s
  | .readGeometry p => Sys2Proof.Machine.execReadGeometry p s
  | .commitGeometry p => Sys2Proof.Machine.execCommitGeometry p s
  | .enterInspection p => Sys2Proof.Machine.execEnterInspection p s
  | .leaveInspection p => Sys2Proof.Machine.execLeaveInspection p s
  | .home p => Sys2Proof.Machine.execHome p s
  | .unpark p => Sys2Proof.Machine.execUnpark p s
  | .park p => Sys2Proof.Machine.execPark p s
  | .startRun p => Sys2Proof.Machine.execStartRun p s
  | .stopRun p => Sys2Proof.Machine.execStopRun p s
  | .resume p => Sys2Proof.Machine.execResume p s
  | .emergencyStop p => Sys2Proof.Machine.execEmergencyStop p s
  | .resetTrip p => Sys2Proof.Machine.execResetTrip p s
  | .advance p => Sys2Proof.Machine.execAdvance p s
  | .reopenDoors p => Sys2Proof.Machine.execReopenDoors p s
  | .ackAlarm p => Sys2Proof.Machine.execAckAlarm p s
  | .evacuate p => Sys2Proof.Machine.execEvacuate p s
  | .endEvacuation p => Sys2Proof.Machine.execEndEvacuation p s
  | .readStopRecord p => Sys2Proof.Machine.execReadStopRecord p s
  | .addRestriction p => Sys2Proof.Machine.execAddRestriction p s
  | .amendRestriction p => Sys2Proof.Machine.execAmendRestriction p s
  | .retireRestriction p => Sys2Proof.Machine.execRetireRestriction p s
  | .readRestriction p => Sys2Proof.Machine.execReadRestriction p s
  | .addEntitlement p => Sys2Proof.Machine.execAddEntitlement p s
  | .amendEntitlement p => Sys2Proof.Machine.execAmendEntitlement p s
  | .blockEntitlement p => Sys2Proof.Machine.execBlockEntitlement p s
  | .unblockEntitlement p => Sys2Proof.Machine.execUnblockEntitlement p s
  | .retireEntitlement p => Sys2Proof.Machine.execRetireEntitlement p s
  | .lookUpEntitlement p => Sys2Proof.Machine.execLookUpEntitlement p s
  | .count p => Sys2Proof.Machine.execCount p s
  | .setGate p => Sys2Proof.Machine.execSetGate p s
  | .readGateStatus p => Sys2Proof.Machine.execReadGateStatus p s
  | .readLineStatus p => Sys2Proof.Machine.execReadLineStatus p s
  | .readMonitor p => Sys2Proof.Machine.execReadMonitor p s
  | .sense p => Sys2Proof.Machine.execSense p s
  | .softReset p => Sys2Proof.Machine.execSoftReset p s
  | .frameError code => Sys2Proof.Machine.execFrameError code s
  | .invalid code => Sys2Proof.Machine.execInvalid code s
  | .busy code => Sys2Proof.Machine.execBusy code s
  | .countingEdge ch level stamp => Sys2Proof.Machine.execCountingEdge ch level stamp s
  | .standstillTimeout ch => Sys2Proof.Machine.execStandstillTimeout ch s
  | .restConfirm => Sys2Proof.Machine.execRestConfirm s
  | .slipTimerExpiry => Sys2Proof.Machine.execSlipTimerExpiry s
  | .datumEdge station => Sys2Proof.Machine.execDatumEdge station s
  | .monitorSample ch reading => Sys2Proof.Machine.execMonitorSample ch reading s
  | .minuteBoundary => Sys2Proof.Machine.execMinuteBoundary s
  | .haulSample => Sys2Proof.Machine.execHaulSample s
  | .pwmPeriod => Sys2Proof.Machine.execPwmPeriod s
  | .torqueReady => Sys2Proof.Machine.execTorqueReady s
  | .torqueReadyTimeout => Sys2Proof.Machine.execTorqueReadyTimeout s
  | .emergencyStopInput level => Sys2Proof.Machine.execEmergencyStopInput level s
  | .driveFaultInput level => Sys2Proof.Machine.execDriveFaultInput level s
  | .tripResetTime => Sys2Proof.Machine.execTripResetTime s
  | .downlink car => Sys2Proof.Machine.execDownlink car s
  | .uplink car charsOk frame => Sys2Proof.Machine.execUplink car charsOk frame s
  | .carLinkTimeout car => Sys2Proof.Machine.execCarLinkTimeout car s
  | .doorFault car => Sys2Proof.Machine.execDoorFault car s
  | .alightTimeExpiry car => Sys2Proof.Machine.execAlightTimeExpiry car s
  | .boardTimeExpiry car => Sys2Proof.Machine.execBoardTimeExpiry car s
  | .reopenTimeExpiry car => Sys2Proof.Machine.execReopenTimeExpiry car s
  | .pollSlot => Sys2Proof.Machine.execPollSlot s
  | .gateResponse charsOk frame => Sys2Proof.Machine.execGateResponse charsOk frame s
  | .responseWindowExpiry => Sys2Proof.Machine.execResponseWindowExpiry s
  | .claimLapse id => Sys2Proof.Machine.execClaimLapse id s
  | .powerOnReset levels => Sys2Proof.Machine.execPowerOnReset levels s
  | .takenPhaseEdge ch phase level stamp => Sys2Proof.Machine.execTakenPhaseEdge ch phase level stamp s
  | .datumLevelInactive station => Sys2Proof.Machine.execDatumLevelInactive station s
  | .torqueReadyInactive => Sys2Proof.Machine.execTorqueReadyInactive s

end Sys2Proof.Machine
end

