-- ==== Sys2Proof/Machine/Step.lean ====
section
/-! DEFINITION. One step: the command at the front of the queue is taken, and an empty queue lets one microsecond of the
timebase pass. -/

namespace Sys2Proof.Machine

/-- The idle step: one count of the 1 µs timebase (log 2). -/
def State.tick (s : State) : State := { s with now := s.now + 1 }

/-- One step of the block: the front command runs on the state with the rest of the queue. -/
def step (s : State) : Host.Outcome State Fault Refusal :=
  match s.pending with
  | [] => .next s.tick
  | c :: rest => exec c { s with pending := rest }

/-- A command is put at the front of the queue. -/
def State.push (s : State) (c : Instr) : State := { s with pending := c :: s.pending }

/-- The command that a word spells is put at the front of the queue; no word of this block's table spells one. -/
def State.withFetchWord (s : State) (nbits w : Nat) : State :=
  match decodeTableWord nbits w with
  | some c => s.push c
  | none => s

end Sys2Proof.Machine
end

