-- ==== Sys2Proof/Safety.lean ====
section
/-! DEFINITION. The vocabulary of claims: the parts of the state a command leaves alone, results, and the invariants that
the spec's rules give the block. -/

namespace Sys2Proof.Machine

/-! ### The parts of the state -/

/-- The parts of the state, for saying what a command leaves unchanged. -/
inductive Part where
  | time | params | active | staged | position | datum | inspection | rope | drive | speed | rest | slip | rollback
  | clock | restrictions | ended | monitor | line | haltCause | run | loads | speeds | outputs | direction | pwm
  | torque | haulTimer | thresholds | interventions | latch | hold | resetWait | inputs | links | reports | records
  | alarms | admitted | evac | ent | gates | boarding | poll | claims | result | attention | choices | queue
  deriving DecidableEq, Repr

/-- The parts of STP's state of a car. -/
def sameCarPart (p : Part) (x y : CarState) : Prop :=
  match p with
  | .links => x.live = y.live ∧ x.linkDue = y.linkDue ∧ x.downDue = y.downDue ∧ x.kept = y.kept
      ∧ x.lastFrame = y.lastFrame
  | .reports => x.report = y.report
  | .records => x.record = y.record
  | .alarms => x.pendingAlarm = y.pendingAlarm
  | .admitted => x.admitted = y.admitted
  | .evac => x.evacLeft = y.evacLeft ∧ x.evacRight = y.evacRight
  | _ => True

/-- A part holds the same in two states. -/
def samePart (p : Part) (s t : State) : Prop :=
  match p with
  | .time => s.now = t.now
  | .params => s.params = t.params
  | .active => s.geo.active = t.geo.active
  | .staged => s.geo.staged = t.geo.staged
  | .position => s.geo.pA = t.geo.pA ∧ s.geo.referenced = t.geo.referenced ∧ s.geo.travelUp = t.geo.travelUp
  | .datum => s.geo.datum = t.geo.datum
  | .inspection => s.geo.inspection = t.geo.inspection
  | .rope => s.spd.rope = t.spd.rope
  | .drive => s.spd.drive = t.spd.drive
  | .speed => s.spd.vMeas = t.spd.vMeas
  | .rest => s.spd.restSince = t.spd.restSince ∧ s.spd.restDue = t.spd.restDue
  | .slip => s.spd.slip = t.spd.slip ∧ s.spd.slipDue = t.spd.slipDue ∧ s.spd.slipPositive = t.spd.slipPositive
  | .rollback => s.spd.rollback = t.spd.rollback
  | .clock => s.tsr.clockSet = t.tsr.clockSet ∧ s.tsr.day = t.tsr.day ∧ s.tsr.minute = t.tsr.minute
      ∧ s.tsr.minuteDue = t.tsr.minuteDue
  | .restrictions => s.tsr.table = t.tsr.table
  | .ended => s.tsr.ended = t.tsr.ended ∧ s.tsr.overflow = t.tsr.overflow
  | .monitor => s.mon = t.mon
  | .line => s.haul.line = t.haul.line
  | .haltCause => s.haul.haltCause = t.haul.haltCause
  | .run => s.haul.run = t.haul.run
  | .loads => s.haul.loadA = t.haul.loadA ∧ s.haul.loadB = t.haul.loadB
  | .speeds => s.haul.vPerm = t.haul.vPerm ∧ s.haul.vSup = t.haul.vSup ∧ s.haul.vDem = t.haul.vDem
      ∧ s.haul.rampFrom = t.haul.rampFrom
  | .outputs => s.haul.driveEnable = t.haul.driveEnable ∧ s.osb.safetyReleased = t.osb.safetyReleased
      ∧ s.osb.serviceReleased = t.osb.serviceReleased
  | .direction => s.haul.driveDirHigh = t.haul.driveDirHigh
  | .pwm => s.haul.pwmDuty = t.haul.pwmDuty ∧ s.haul.pwmDue = t.haul.pwmDue
  | .torque => s.haul.torqueReady = t.haul.torqueReady ∧ s.haul.torqueDue = t.haul.torqueDue
  | .haulTimer => s.haul.haulDue = t.haul.haulDue
  | .thresholds => s.osb.t1 = t.osb.t1 ∧ s.osb.t2 = t.osb.t2 ∧ s.osb.vAbs = t.osb.vAbs
  | .interventions => s.osb.interventions = t.osb.interventions
  | .latch => s.osb.first = t.osb.first ∧ s.osb.fromState = t.osb.fromState ∧ s.osb.vTrip = t.osb.vTrip
      ∧ s.osb.further = t.osb.further
  | .hold => s.osb.hold = t.osb.hold
  | .resetWait => s.osb.resetDue = t.osb.resetDue ∧ s.osb.resetElapsed = t.osb.resetElapsed
  | .inputs => s.osb.estop = t.osb.estop ∧ s.osb.driveFault = t.osb.driveFault
  | .links => sameCarPart .links s.stp.carA t.stp.carA ∧ sameCarPart .links s.stp.carB t.stp.carB
  | .reports => sameCarPart .reports s.stp.carA t.stp.carA ∧ sameCarPart .reports s.stp.carB t.stp.carB
  | .records => sameCarPart .records s.stp.carA t.stp.carA ∧ sameCarPart .records s.stp.carB t.stp.carB
  | .alarms => sameCarPart .alarms s.stp.carA t.stp.carA ∧ sameCarPart .alarms s.stp.carB t.stp.carB
  | .admitted => sameCarPart .admitted s.stp.carA t.stp.carA ∧ sameCarPart .admitted s.stp.carB t.stp.carB
  | .evac => sameCarPart .evac s.stp.carA t.stp.carA ∧ sameCarPart .evac s.stp.carB t.stp.carB
  | .ent => s.ent = t.ent
  | .gates => s.adm.gates = t.adm.gates
  | .boarding => s.adm.boarding = t.adm.boarding ∧ s.adm.broadcastPending = t.adm.broadcastPending
  | .poll => s.adm.pollDue = t.adm.pollDue ∧ s.adm.pollCount = t.adm.pollCount ∧ s.adm.slotPolls = t.adm.slotPolls
      ∧ s.adm.normalPtr = t.adm.normalPtr ∧ s.adm.urgentPtr = t.adm.urgentPtr ∧ s.adm.polled = t.adm.polled
      ∧ s.adm.windowDue = t.adm.windowDue ∧ s.adm.lastFrame = t.adm.lastFrame
  | .claims => s.adm.claims = t.adm.claims ∧ s.adm.lastClaimId = t.adm.lastClaimId
  | .result => s.lnk.buffer = t.lnk.buffer
  | .attention => s.lnk.attention = t.lnk.attention
  | .choices => s.choices = t.choices
  | .queue => s.pending = t.pending

/-- Every part outside the list holds the same in two states. -/
def keptBut (changed : List Part) (s t : State) : Prop := ∀ p : Part, p ∉ changed → samePart p s t

/-- The result buffer holds this result code, answering this command code with this data (R178, R179). -/
def answered (t : State) (rc : ResultCode) (code : Byte) (data : List Byte) : Prop :=
  t.lnk.buffer = some ⟨rc, code, data⟩

/-- The state with this result in the result buffer, and nothing else changed (R178, R179). -/
def answeredOnly (s : State) (rc : ResultCode) (code : Byte) (data : List Byte) : State :=
  { s with lnk := { s.lnk with buffer := some ⟨rc, code, data⟩ } }

/-- A cause is a member of the attention set (R183). -/
def hasAttention (t : State) (c : Attention) : Bool := t.lnk.attention.getLsbD (attentionBit c)

/-- Every attention cause that was raised before is still a member (R183). -/
def attentionKept (s t : State) : Prop := s.lnk.attention ||| t.lnk.attention = t.lnk.attention

/-- A change that leaves every part outside the list as it is and removes no attention cause. -/
def touches (changed : List Part) (s t : State) : Prop := keptBut changed s t ∧ attentionKept s t

/-- A line-link command whose parameter length does not match its form (R178). -/
def hasWrongLength : Instr → Bool
  | .setClock .wrongLength => true
  | .setClock (.fields _) => false
  | .getClock .wrongLength => true
  | .getClock (.fields _) => false
  | .setParameter .wrongLength => true
  | .setParameter (.fields _) => false
  | .getParameter .wrongLength => true
  | .getParameter (.fields _) => false
  | .writeStagedHeader .wrongLength => true
  | .writeStagedHeader (.fields _) => false
  | .writeStagedStation .wrongLength => true
  | .writeStagedStation (.fields _) => false
  | .writeStagedSegment .wrongLength => true
  | .writeStagedSegment (.fields _) => false
  | .readGeometry .wrongLength => true
  | .readGeometry (.fields _) => false
  | .commitGeometry .wrongLength => true
  | .commitGeometry (.fields _) => false
  | .enterInspection .wrongLength => true
  | .enterInspection (.fields _) => false
  | .leaveInspection .wrongLength => true
  | .leaveInspection (.fields _) => false
  | .home .wrongLength => true
  | .home (.fields _) => false
  | .unpark .wrongLength => true
  | .unpark (.fields _) => false
  | .park .wrongLength => true
  | .park (.fields _) => false
  | .startRun .wrongLength => true
  | .startRun (.fields _) => false
  | .stopRun .wrongLength => true
  | .stopRun (.fields _) => false
  | .resume .wrongLength => true
  | .resume (.fields _) => false
  | .emergencyStop .wrongLength => true
  | .emergencyStop (.fields _) => false
  | .resetTrip .wrongLength => true
  | .resetTrip (.fields _) => false
  | .advance .wrongLength => true
  | .advance (.fields _) => false
  | .reopenDoors .wrongLength => true
  | .reopenDoors (.fields _) => false
  | .ackAlarm .wrongLength => true
  | .ackAlarm (.fields _) => false
  | .evacuate .wrongLength => true
  | .evacuate (.fields _) => false
  | .endEvacuation .wrongLength => true
  | .endEvacuation (.fields _) => false
  | .readStopRecord .wrongLength => true
  | .readStopRecord (.fields _) => false
  | .addRestriction .wrongLength => true
  | .addRestriction (.fields _) => false
  | .amendRestriction .wrongLength => true
  | .amendRestriction (.fields _) => false
  | .retireRestriction .wrongLength => true
  | .retireRestriction (.fields _) => false
  | .readRestriction .wrongLength => true
  | .readRestriction (.fields _) => false
  | .addEntitlement .wrongLength => true
  | .addEntitlement (.fields _) => false
  | .amendEntitlement .wrongLength => true
  | .amendEntitlement (.fields _) => false
  | .blockEntitlement .wrongLength => true
  | .blockEntitlement (.fields _) => false
  | .unblockEntitlement .wrongLength => true
  | .unblockEntitlement (.fields _) => false
  | .retireEntitlement .wrongLength => true
  | .retireEntitlement (.fields _) => false
  | .lookUpEntitlement .wrongLength => true
  | .lookUpEntitlement (.fields _) => false
  | .count .wrongLength => true
  | .count (.fields _) => false
  | .setGate .wrongLength => true
  | .setGate (.fields _) => false
  | .readGateStatus .wrongLength => true
  | .readGateStatus (.fields _) => false
  | .readLineStatus .wrongLength => true
  | .readLineStatus (.fields _) => false
  | .readMonitor .wrongLength => true
  | .readMonitor (.fields _) => false
  | .sense .wrongLength => true
  | .sense (.fields _) => false
  | .softReset .wrongLength => true
  | .softReset (.fields _) => false
  | .frameError _ => false
  | .invalid _ => false
  | .busy _ => false
  | .countingEdge _ _ _ => false
  | .standstillTimeout _ => false
  | .restConfirm => false
  | .slipTimerExpiry => false
  | .datumEdge _ => false
  | .monitorSample _ _ => false
  | .minuteBoundary => false
  | .haulSample => false
  | .pwmPeriod => false
  | .torqueReady => false
  | .torqueReadyTimeout => false
  | .emergencyStopInput _ => false
  | .driveFaultInput _ => false
  | .tripResetTime => false
  | .downlink _ => false
  | .uplink _ _ _ => false
  | .carLinkTimeout _ => false
  | .doorFault _ => false
  | .alightTimeExpiry _ => false
  | .boardTimeExpiry _ => false
  | .reopenTimeExpiry _ => false
  | .pollSlot => false
  | .gateResponse _ _ => false
  | .responseWindowExpiry => false
  | .claimLapse _ => false
  | .powerOnReset _ => false
  | .takenPhaseEdge _ _ _ _ => false
  | .datumLevelInactive _ => false
  | .torqueReadyInactive => false

/-- The parts of a line transition: state, outputs, published speeds, rollback, evacuations, LINE STATE. -/
abbrev lineParts : List Part := [.line, .outputs, .speeds, .rollback, .evac, .attention]

/-- The parts that the lapse of claims and the discard of stop records may change (R117, R166, R170). -/
abbrev lapseParts : List Part := [.records, .loads, .attention, .ent, .claims, .gates]

/-- The parts that an entry to HALTED may change (R76). -/
abbrev haltParts : List Part := lineParts ++ [.haltCause, .torque] ++ lapseParts

/-- The parts that an entry to DWELL or PARKED may change (R66, R67, R78). -/
abbrev transitionParts : List Part := haltParts ++ [.run, .thresholds, .alarms]

/-- The parts that taking a trip cause may change (R100 to R105). -/
abbrev tripParts : List Part := lineParts ++ [.torque, .records, .latch, .hold, .resetWait]

/-- The parts that a comparison may change (R92 to R94). -/
abbrev compareParts : List Part := [.choices, .interventions] ++ tripParts

/-- The parts of the state that a command may change; every other part it leaves as it was. -/
def partsOf : Instr → List Part
  | .setClock _ => [.clock, .restrictions, .ended, .attention, .result]
  | .getClock _ => [.result]
  | .setParameter _ => [.params, .result]
  | .getParameter _ => [.result]
  | .writeStagedHeader _ => [.staged, .result]
  | .writeStagedStation _ => [.staged, .result]
  | .writeStagedSegment _ => [.staged, .result]
  | .readGeometry _ => [.result]
  | .commitGeometry _ => [.active, .position, .restrictions, .boarding, .result]
  | .enterInspection _ => [.inspection, .boarding, .attention, .result]
  | .leaveInspection _ => [.inspection, .boarding, .attention, .result]
  | .home _ => [.position, .result]
  | .unpark _ => transitionParts ++ [.boarding, .result]
  | .park _ => transitionParts ++ [.boarding, .result]
  | .startRun _ => [.run, .haltCause, .direction, .thresholds] ++ compareParts ++ [.boarding, .result]
  | .stopRun _ => haltParts ++ [.boarding, .result]
  | .resume _ => [.run, .haltCause, .direction, .thresholds] ++ compareParts ++ [.boarding, .result]
  | .emergencyStop _ => tripParts ++ [.boarding, .result]
  | .resetTrip _ => transitionParts ++ [.latch, .hold, .resetWait, .boarding, .result]
  | .advance _ => [.records, .attention, .boarding, .result]
  | .reopenDoors _ => [.records, .result]
  | .ackAlarm _ => [.records, .alarms, .result]
  | .evacuate _ => [.evac, .result]
  | .endEvacuation _ => [.evac, .result]
  | .readStopRecord _ => [.result]
  | .addRestriction _ => [.restrictions, .result]
  | .amendRestriction _ => [.restrictions, .result]
  | .retireRestriction _ => [.restrictions, .result]
  | .readRestriction _ => [.ended, .result]
  | .addEntitlement _ => [.ent, .result]
  | .amendEntitlement _ => [.ent, .result]
  | .blockEntitlement _ => [.ent, .result]
  | .unblockEntitlement _ => [.ent, .result]
  | .retireEntitlement _ => [.ent, .result]
  | .lookUpEntitlement _ => [.result]
  | .count _ => [.result]
  | .setGate _ => [.gates, .result]
  | .readGateStatus _ => [.result]
  | .readLineStatus _ => [.result]
  | .readMonitor _ => [.result]
  | .sense _ => [.attention, .result]
  | .softReset _ => transitionParts ++ [.latch, .hold, .resetWait, .interventions, .pwm, .boarding, .result]
  | .frameError _ => [.result]
  | .invalid _ => [.result]
  | .busy _ => [.result]
  | .countingEdge _ _ _ => [.time, .rope, .drive, .position, .speed, .rest, .slip, .boarding] ++ compareParts
  | .standstillTimeout _ => [.time, .rope, .drive, .speed, .rest, .slip, .boarding] ++ compareParts
  | .restConfirm => [.time, .rest, .resetWait, .boarding] ++ transitionParts
  | .slipTimerExpiry => [.time, .slip, .boarding] ++ tripParts
  | .datumEdge _ => [.datum, .position, .boarding] ++ haltParts
  | .monitorSample _ _ => [.time, .monitor, .restrictions, .latch, .hold, .resetWait, .boarding] ++ haltParts
  | .minuteBoundary => [.time, .clock, .restrictions, .ended, .attention]
  | .haulSample => [.time, .haulTimer, .thresholds, .haltCause, .boarding] ++ compareParts ++ lapseParts
  | .pwmPeriod => [.time, .pwm]
  | .torqueReady => lineParts ++ [.torque, .boarding] ++ lapseParts
  | .torqueReadyTimeout => [.time, .boarding] ++ transitionParts
  | .emergencyStopInput _ => [.inputs, .boarding] ++ tripParts
  | .driveFaultInput _ => [.inputs, .boarding] ++ tripParts
  | .tripResetTime => [.time, .resetWait]
  | .downlink _ => [.time, .links, .records]
  | .uplink _ _ _ => [.links, .reports, .admitted, .latch, .hold, .resetWait, .boarding] ++ transitionParts
  | .carLinkTimeout _ => [.time, .links, .boarding] ++ haltParts
  | .doorFault _ => [.time, .records, .attention]
  | .alightTimeExpiry _ => [.time, .records]
  | .boardTimeExpiry _ => [.time, .records, .attention, .boarding]
  | .reopenTimeExpiry _ => [.time, .records]
  | .pollSlot => [.time, .poll, .gates, .boarding]
  | .gateResponse _ _ => [.poll, .admitted, .boarding] ++ lapseParts
  | .responseWindowExpiry => [.time, .poll, .gates, .attention, .boarding]
  | .claimLapse _ => [.time, .boarding] ++ lapseParts
  | .powerOnReset _ =>
    [.time, .params, .active, .staged, .position, .datum, .inspection, .rope, .drive, .speed, .rest, .slip, .clock,
      .ended, .monitor, .direction, .pwm, .haulTimer, .interventions, .inputs, .links, .reports, .admitted, .latch,
      .hold, .resetWait, .restrictions, .poll, .boarding, .result] ++ transitionParts
  | .takenPhaseEdge _ _ _ _ => [.time, .rope, .drive, .position, .speed, .rest, .slip, .boarding] ++ compareParts
  | .datumLevelInactive _ => [.datum]
  | .torqueReadyInactive => [.torque]

/-! ### What the boundary passes leave of an entry -/

/-- An entry after the boundary passes at a time: PENDING and due goes IN FORCE, and IN FORCE with a due until-time goes
FREE (R35). -/
def entryAfterPasses (now : ServiceTime) (x : Option Restriction) : Option Restriction :=
  x.bind fun r =>
    let inForce := r.inForce || decide (∃ f ∈ r.fromTime, f.count ≤ now.count)
    if inForce ∧ (∃ u ∈ r.untilTime, u.count ≤ now.count) then none else some { r with inForce := inForce }

/-- The ended records of the entries that the boundary passes at a time retire, in rising entry order (R35, R45). -/
def expiredRecords (now : ServiceTime) (table : List (Option Restriction)) : List EndedRecord :=
  (List.range 32).filterMap fun n =>
    (table.getD n none).bind fun r =>
      if (entryAfterPasses now (some r)).isNone then some ⟨n, r.label, now⟩ else none

/-- The last eight records of a list, as the ended list keeps them (R45). -/
def lastEight (l : List EndedRecord) : List EndedRecord := l.drop (l.length - 8)

/-! ### Checks made in order -/

/-- A check of a command: whether it fails, and the result code and data it then gives. -/
abbrev Check := Bool × ResultCode × List Byte

/-- The answer of the first check that fails, none when every check passes. -/
def refusedBy (checks : List Check) : Option (ResultCode × List Byte) := (checks.find? (·.1)).map (·.2)

/-- The checks of UNPARK (R66). -/
def unparkChecks (s : State) : List Check :=
  [(decide (s.haul.line ≠ .parked), .wrongState, []), (!s.hasGeometry, .wrongState, []),
    (!s.atRest, .refused, [0x01]), (s.osb.estop, .refused, [0x03]), (s.osb.driveFault, .refused, [0x04]),
    (s.mon.slack.raised, .refused, [0x05])]

/-- The checks of PARK (R67). -/
def parkChecks (s : State) : List Check :=
  [(decide (s.haul.line ≠ .dwell ∧ s.haul.line ≠ .halted), .wrongState, []), (!s.atRest, .refused, [0x01]),
    (!s.allLocked, .refused, [0x06])]

/-- The departure holds, in the order in which START RUN and RESUME name them (R68, R69). -/
def holdChecks (s : State) : List Check :=
  [(s.mon.w2.raised, .refused, [0x0B]), (s.mon.m2.raised, .refused, [0x0C]),
    (s.mon.overtension.raised, .refused, [0x0D]), (s.alarmHold, .refused, [0x0E])]

/-- The checks of START RUN (R69). -/
def startRunChecks (a : RunArgs) (s : State) : List Check :=
  [(decide (3 < a.target.toNat ∨ a.speed.toNat < 500 ∨ 12000 < a.speed.toNat), .badParameter, []),
    (decide (s.haul.line ≠ .dwell ∧ s.haul.line ≠ .halted), .wrongState, []),
    (!s.inUse a.target.toNat, .refused, [0x07]), (decide (s.current = some a.target.toNat), .refused, [0x08]),
    (!s.atRest, .refused, [0x01]),
    (decide (s.haul.line = .dwell) && !(s.inPhase .a .ready && s.inPhase .b .ready), .refused, [0x09]),
    (!(s.stp.carA.live && s.stp.carB.live), .refused, [0x0A]),
    (!(s.allLocked && s.fresh .a && s.fresh .b), .refused, [0x06])] ++ holdChecks s

/-- The checks of RESUME, with the run record, if any, that it continues (R77). -/
def resumeChecks (s : State) : List Check :=
  [(decide (s.haul.line ≠ .halted), .wrongState, []), (s.haul.run.isNone, .refused, [0x0F]),
    (decide (∃ r ∈ s.haul.run, s.current = some r.target), .refused, [0x08]), (!s.atRest, .refused, [0x01]),
    (!s.haltGone, .refused, [0x10]), (!(s.stp.carA.live && s.stp.carB.live), .refused, [0x0A]),
    (!(s.allLocked && s.fresh .a && s.fresh .b), .refused, [0x06])] ++ holdChecks s

/-- The checks of RESET TRIP in TRIPPED (R106). -/
def resetChecks (s : State) : List Check :=
  [(!s.osb.resetElapsed, .refused, [0x11])]
    ++ allCauses.map (fun c =>
        (decide (s.osb.first = some c) && !s.causeAbsent c, .refused, [BitVec.ofNat 8 (0x40 + causeCode c)]))
    ++ allCauses.map (fun c =>
        (causeIn s.osb.further c && !s.causeAbsent c, .refused, [BitVec.ofNat 8 (0x40 + causeCode c)]))
    ++ [(allCauses.any (fun c => c.trackBrake && (decide (s.osb.first = some c) || causeIn s.osb.further c))
          && !(s.stp.carA.railBrakesOff && s.stp.carB.railBrakesOff), .refused, [0x12]),
      (s.osb.estop, .refused, [0x03])]

/-- The checks of EVACUATE (R131). -/
def evacuateChecks (a : CarSideArgs) (c : Car) (s : State) : List Check :=
  [(decide (1 < a.car.toNat ∨ a.side.toNat < 1 ∨ 2 < a.side.toNat), .badParameter, []),
    (decide (s.haul.line ≠ .halted ∧ s.haul.line ≠ .tripped), .wrongState, []),
    (decide (¬∃ t ∈ s.spd.restSince, t + 5000000 ≤ s.now), .refused, [0x01]), (!(s.car c).live, .refused, [0x0A])]

/-- The checks of ADD RESTRICTION (R40), on the span clamped to [0, L]. -/
def addRestrictionChecks (a : AddRestrictionArgs) (s : State) : List Check :=
  let f := a.presence.getLsbD 0
  let u := a.presence.getLsbD 1
  let fromCount := a.fromDay.toNat * 1440 + a.fromMinute.toNat
  let untilCount := a.untilDay.toNat * 1440 + a.untilMinute.toNat
  [(!s.hasGeometry, .wrongState, []),
    (decide (2 < a.direction.toNat ∨ (f = true ∧ 1439 < a.fromMinute.toNat) ∨ (u = true ∧ 1439 < a.untilMinute.toNat)
      ∨ 12000 < a.limit.toNat), .badParameter, []),
    (decide (min a.spanEnd.toNat s.len ≤ min a.spanStart.toNat s.len), .badParameter, []),
    (!s.tsr.clockSet && (f || u), .noClock, []),
    (decide ((f = true ∧ u = true ∧ untilCount ≤ fromCount) ∨ (u = true ∧ untilCount ≤ s.time.count)),
      .badParameter, []),
    ((List.range 26).all fun n => (s.entry (n + 6)).isSome, .tableFull, [])]

/-- The checks of AMEND RESTRICTION (R42). -/
def amendRestrictionChecks (a : AmendRestrictionArgs) (s : State) : List Check :=
  let n := a.entry.toNat
  let set := decide (a.action = 2)
  let untilCount := a.untilDay.toNat * 1440 + a.untilMinute.toNat
  [(decide (31 < n ∨ 12000 < a.limit.toNat ∨ 2 < a.action.toNat ∨ (a.action = 2 ∧ 1439 < a.untilMinute.toNat)),
      .badParameter, []),
    (decide (n < 6), .wrongOrigin, []), ((s.entry n).isNone, .notFound, []), (set && !s.tsr.clockSet, .noClock, []),
    (set && decide ((∃ r ∈ s.entry n, ∃ f ∈ r.fromTime, untilCount ≤ f.count) ∨ untilCount ≤ s.time.count),
      .badParameter, [])]

/-- The two bits of an action of AMEND ENTITLEMENT (R190). -/
def actionBits (a : AmendEntArgs) (k : Nat) : Nat := (a.actions.extractLsb' (2 * k) 2).toNat

/-- The checks of AMEND ENTITLEMENT (R143), on the slot and record found, if any. Fields 0 to 4 are rides remaining, group
size, valid-until day, stations allowed and daily cap; the actions are 0 KEEP, 1 SET, 2 REMOVE. -/
def amendEntitlementChecks (a : AmendEntArgs) (s : State) : List Check :=
  let found := entFind s.ent.table a.media
  let kindNot (k : EntKind → Bool) : Bool := (found.map fun x => !k x.2.kind).getD false
  [(decide (a.media = 0 ∨ 1 < actionBits a 0 ∨ 1 < actionBits a 1 ∨ 2 < actionBits a 2 ∨ 2 < actionBits a 3
      ∨ 2 < actionBits a 4
      ∨ (actionBits a 1 = 1 ∧ ¬(1 ≤ a.group.toNat ∧ a.group.toNat ≤ 9))
      ∨ (actionBits a 3 = 1 ∧ ¬(1 ≤ a.stations.toNat ∧ a.stations.toNat ≤ 15))
      ∨ (actionBits a 4 = 1 ∧ ¬(1 ≤ a.cap.toNat ∧ a.cap.toNat ≤ 15))), .badParameter, []),
    (found.isNone, .notFound, []), ((found.map fun x => x.2.claim.isSome).getD false, .inUse, []),
    ((decide (actionBits a 0 ≠ 0) && kindNot (· == .multi))
      || (decide (actionBits a 1 ≠ 0 ∧ a.group ≠ 1) && kindNot fun k => k == .single || k == .multi)
      || (decide (actionBits a 2 ≠ 0) && kindNot (· != .staff))
      || (decide (actionBits a 2 = 2) && kindNot (· != .period))
      || (decide (actionBits a 2 = 1) && (found.map fun x =>
          x.2.kind == .period && decide (a.untilDay.toNat < x.2.validFrom.getD 0)).getD false)
      || (decide (actionBits a 4 ≠ 0) && kindNot (· == .period)), .badParameter, [])]

/-- The checks of SET GATE (R155). -/
def setGateChecks (a : GateArgs) (s : State) : List Check :=
  [(decide (a.address.toNat < 1 ∨ 16 < a.address.toNat ∨ (3 < a.station.toNat ∧ a.station ≠ 0xFF)
      ∨ 1 < a.enable.toNat), .badParameter, []),
    (decide (a.station = 0xFF ∧ a.enable = 1), .badParameter, []),
    (decide (∃ c ∈ s.adm.claims, c.gate = a.address.toNat), .inUse, [])]

/-- The cases in which the record of an ADD ENTITLEMENT fails its ranges and presence rules (R141, R191). -/
def transferFails (t : EntTransfer) : Prop :=
  let kind := t.kind.toNat
  let group := t.group.toNat
  let has (k : Nat) : Bool := t.presence.getLsbD k
  t.media = 0 ∨ t.topBit = true ∨ has 7 = true
    ∨ group < 1 ∨ 9 < group ∨ (2 ≤ kind ∧ group ≠ 1)
    ∨ (has 0 = true ∧ (kind = 0 ∨ kind = 3)) ∨ (has 0 = false ∧ (kind = 1 ∨ kind = 2))
    ∨ (kind = 1 ∧ t.fieldA.toNat % 256 ≠ 0)
    ∨ (has 1 = true ∧ kind = 3) ∨ (has 1 = false ∧ kind = 2)
    ∨ (kind = 2 ∧ t.untilDay.toNat < t.fieldA.toNat)
    ∨ (has 2 = true ∧ t.stations = 0)
    ∨ (has 3 = true ∧ (kind ≠ 2 ∨ t.cap = 0 ∨ t.ridesToday ≠ 0))
    ∨ has 4 = true ∨ has 5 = true ∨ has 6 = true

/-! ### What a line transition leaves -/

/-- The line and its outputs in DWELL, with no run record and the speeds at 0 (R63, R66, R78, R91, R102, R132). -/
def standsInDwell (s t : State) : Prop :=
  t.haul.line = .dwell ∧ t.haul.run = none ∧ t.haul.vPerm = 0 ∧ t.haul.vSup = 0 ∧ t.haul.vDem = 0
    ∧ t.haul.torqueDue = none ∧ t.haul.driveEnable = false ∧ t.osb.safetyReleased = true
    ∧ t.osb.serviceReleased = false ∧ t.osb.t1 = min 13000 (s.par 0x71) ∧ t.osb.t2 = min 13000 (s.par 0x73)
    ∧ t.osb.vAbs = s.par 0x74
    ∧ t.spd.rollback = false
    ∧ t.stp.carA.evacLeft = false ∧ t.stp.carA.evacRight = false ∧ t.stp.carB.evacLeft = false
    ∧ t.stp.carB.evacRight = false
    ∧ hasAttention t .lineState = true

/-- What the test of an ARRIVED record makes of it, given whether the berthed conditions hold (R120 to R122), or in
inspection mode with both sides LOCKED (R120, R124). A suspended record waits in inspection mode (log 20). -/
def arrivedRecord (s : State) (c : Car) (berthed : Bool) (r : StopRecord) : StopRecord :=
  let w := s.weigh c (s.car c).admitted
  let board (time : Nat) : StopRecord :=
    { r with
      phase := .boarding, wOpen := some w, quota := s.capacity - w, phaseDue := some (s.now + sec time),
      closeDue := none, close := none }
  if s.geo.inspection then
    if (s.car c).locked ∧ r.suspended = false then
      { r with
        phase := .ready, wOpen := some w, quota := 0, phaseDue := none, closeDue := none, close := none,
        reopening := false }
    else r
  else if berthed then
    match s.geo.active.station r.station with
    | some y =>
      if y.separateExit.isNone then board y.board
      else if y.alight = 0 then
        { r with
          phase := .alighting, phaseDue := none, close := some ⟨true, 0, false⟩,
          closeDue := some (s.now + sec (s.par 0x82)) }
      else { r with phase := .alighting, phaseDue := some (s.now + sec y.alight) }
    | none => board 0
  else r

/-- A stop record as an entry to DWELL at a station makes it (R116): in ARRIVED, or in the phase that its test gives it at
once (R120). -/
def arrivalRecord (s : State) (c : Car) (k : Nat) : StopRecord :=
  arrivedRecord s c (s.berthed c k && s.atRest && (s.car c).live)
    { station := k, phase := .arrived, wOpen := none, quota := 0, boarded := 0, held := 0, late := 0,
      alarm := (s.car c).pendingAlarm, doorFault := false, suspended := false, phaseDue := none, closeDue := none,
      close := none, reopening := false }

/-- A stop record after its held count falls by a number of persons: READY where it waits in CLOSING for that alone (R117,
R123). -/
def releasedRecord (q : StopRecord) (n : Nat) : StopRecord :=
  if q.phase = .closing ∧ q.reopening = false ∧ (∃ y ∈ q.close, y.confirmed = true) ∧ q.held - n = 0 then
    { q with held := 0, phase := .ready, phaseDue := none, closeDue := none, close := none, reopening := false }
  else { q with held := q.held - n }

/-- HAUL's load figure of a car (R71). -/
def loadOf (s : State) : Car → Option Nat
  | .a => s.haul.loadA
  | .b => s.haul.loadB

/-- A record that enters READY raises STOP PHASE and fixes the car's load figure (R124). -/
def fixesLoad (c : Car) (q p : StopRecord) (s t : State) : Prop :=
  let base := p.wOpen.getD 0 + p.boarded
  q.phase ≠ .ready → p.phase = .ready →
    hasAttention t .stopPhase = true ∧ loadOf t c = some (min 250 (max (s.weigh c base) base))

/-- The slip test at a publication, on the channel speeds as they stand after it (R27, R28). -/
def slipTested (s t : State) : Prop :=
  let d : Int := (t.spd.drive.speed : Int) - t.spd.rope.speed
  let positive := decide (0 < d)
  if d.natAbs ≤ s.par 0x24 then t.spd.slip = .absent ∧ t.spd.slipDue = none
  else if s.spd.slip ≠ .absent ∨ (s.spd.slipDue.isSome ∧ s.spd.slipPositive = positive) then samePart .slip s t
  else t.spd.slip = .absent ∧ t.spd.slipDue = some (t.now + ms (s.par 0x25)) ∧ t.spd.slipPositive = positive

/-- The entry to DWELL at a station with two new stop records (R66, R78, R107, R116). -/
def enteredDwell (k : Nat) (s t : State) : Prop :=
  standsInDwell s t ∧ t.haul.haltCause = .noCause
    ∧ t.record .a = some (arrivalRecord s .a k) ∧ t.record .b = some (arrivalRecord s .b (3 - k))
    ∧ t.stp.carA.pendingAlarm = false ∧ t.stp.carB.pendingAlarm = false
    ∧ (s.geo.inspection = false → t.haul.loadA = s.haul.loadA ∧ t.haul.loadB = s.haul.loadB)
    ∧ hasAttention t .stopPhase = true

/-- The entry to HALTED with a cause (R76, R102): the run record and v_sup stay, stop records go. -/
def enteredHalted (h : HaltCause) (s t : State) : Prop :=
  t.haul.line = .halted ∧ t.haul.haltCause = h ∧ t.haul.run = s.haul.run ∧ t.haul.vPerm = 0 ∧ t.haul.vDem = 0
    ∧ t.haul.vSup = s.haul.vSup ∧ t.haul.torqueDue = none ∧ t.haul.driveEnable = false ∧ t.osb.safetyReleased = true
    ∧ t.osb.serviceReleased = false ∧ t.spd.rollback = false ∧ t.record .a = none ∧ t.record .b = none
    ∧ hasAttention t .lineState = true

/-- The entry to STARTING with a run record (R64, R70, R72, R73, R87, R91). -/
def enteredStarting (s t : State) (r : RunRecord) : Prop :=
  let berth : Int := s.geo.active.berth r.target
  let descending : Car := if r.up then .b else .a
  let stop : Int := if r.up then s.geo.active.len - berth else berth
  let here := s.pos descending
  let load : Car → Option Nat := fun c => match c with | .a => s.haul.loadA | .b => s.haul.loadB
  let imbalance := (load descending).getD (s.par 0x6A) - (load (otherCar descending)).getD 0
  r.up = decide (s.posA ≤ berth)
    ∧ r.gMax = maxGradient (s.geo.active.under (min here stop - s.par 0x11) (max here stop + s.par 0x11))
    ∧ r.aEff = max (s.par 0x61) (s.par 0x60 - imbalance * s.par 0x62 * r.gMax / 10000)
    ∧ t.haul.line = .starting ∧ t.haul.run = some r ∧ t.haul.haltCause = .noCause
    ∧ t.haul.driveEnable = true ∧ t.osb.safetyReleased = true ∧ t.osb.serviceReleased = false
    ∧ t.haul.driveDirHigh = (if paramGet s.params 0x6B = 1 then !r.up else r.up)
    ∧ t.haul.torqueReady = s.haul.torqueReady ∧ t.haul.torqueDue = some (s.now + ms (s.par 0x69))
    ∧ t.haul.vPerm = leastSpeed (t.permittedTerms r) ∧ t.haul.vSup = t.haul.vPerm ∧ t.haul.vDem = 0
    ∧ t.osb.t1 = min 13000 (t.haul.vSup + t.haul.vSup * s.par 0x70 / 256 + s.par 0x71)
    ∧ t.osb.t2 = min 13000 (t.haul.vSup + t.haul.vSup * s.par 0x72 / 256 + s.par 0x73)
    ∧ t.osb.vAbs = s.par 0x74
    ∧ t.stp.carA.evacLeft = false ∧ t.stp.carA.evacRight = false ∧ t.stp.carB.evacLeft = false
    ∧ t.stp.carB.evacRight = false ∧ t.spd.rollback = false
    ∧ t.lnk.attention = s.lnk.attention ||| attentionMask .lineState
    ∧ keptBut [.run, .line, .haltCause, .outputs, .speeds, .rollback, .evac, .torque, .direction, .thresholds,
        .boarding, .attention, .result] s t

/-! ### The poll arbiter and presentations -/

/-- The normal class of the arbiter: an enabled gate (R158). -/
def normalGate (s : State) (k : Nat) : Prop := ∃ g ∈ s.gate k, g.enabled = true

/-- The urgent class of the arbiter: an enabled gate with a pending reply or an open claim (R158). -/
def urgentGate (s : State) (k : Nat) : Prop :=
  ∃ g ∈ s.gate k, g.enabled = true ∧ (g.replyPending = true ∨ ∃ c ∈ s.adm.claims, c.gate = k)

/-- The next gate of a class: the lowest address above the pointer, or where there is none the lowest (R158). -/
def nextInTurn (cls : Nat → Prop) (ptr k : Nat) : Prop :=
  cls k ∧ ((ptr < k ∧ ∀ j, cls j → ptr < j → k ≤ j) ∨ ((∀ j, cls j → j ≤ ptr) ∧ ∀ j, cls j → k ≤ j))

/-- The poll count after the slot that runs (R158). -/
def pollCountAfter (s : State) : Nat :=
  if s.adm.slotPolls = false then s.adm.pollCount else if s.adm.pollCount = 3 then 0 else s.adm.pollCount + 1

/-- The slot polls a gate at a time: its frame, its window, its reply no longer pending, the poll count to rise after it
(R158, R159, R161). -/
def pollsGate (now k : Nat) (g : Gate) (s t : State) : Prop :=
  t.adm.polled = some k ∧ t.adm.windowDue = some (now + 764 + 4000)
    ∧ t.adm.lastFrame = withCrc ([BitVec.ofNat 8 k,
        BitVec.ofNat 8 (toggleCode g.toggle + 16 * boardingCode (s.boardingTold g.station))]
        ++ answerBytes (if g.replyPending then g.answer else .noAnswer))
    ∧ t.adm.slotPolls = true
    ∧ t.gate k = some { g with replyPending := false } ∧ (∀ j, j ≠ k → t.gate j = s.gate j)

/-- The checks of a presentation of a media number at a gate's station, with the reason of each (R164). -/
def presentChecks (s : State) (station : Option Nat) (found : Option EntRecord) : List (Bool × Reason) :=
  let k := station.getD 0
  let on (p : EntRecord → Bool) : Bool := (found.map p).getD false
  [(decide (s.boardingTold station = .closed), .closed), (decide (s.boardingTold station = .suspended), .suspended),
    (decide (s.boardingTold station = .outOfService), .outOfService), (found.isNone, .unknown),
    (on fun r => r.blocked, .blocked), (on fun r => r.claim.isSome, .inUse),
    (on fun r => (r.validFrom.isSome || r.validUntil.isSome) && !s.tsr.clockSet, .noClock),
    (on fun r => decide (∃ d ∈ r.validFrom, s.tsr.day < d), .notYet),
    (on fun r => decide (∃ d ∈ r.validUntil, d < s.tsr.day), .expired),
    (on fun r => decide (∃ m ∈ r.stations, m.getLsbD k = false), .wrongStation),
    (on fun r => decide (r.kind = .period ∧ 0 < s.par 0xA1 ∧ ∃ st ∈ r.stamp, st.station = k
        ∧ s.time.count < st.day * 1440 + st.minute + s.par 0xA1), .passback),
    (on fun r => decide (r.kind = .multi ∧ r.rides.getD 0 = 0), .noRides),
    (on fun r => decide (r.kind = .period ∧ ∃ d ∈ r.daily, d.cap ≤
        (if s.tsr.clockSet = true ∧ d.rideDay = some s.tsr.day then d.today else 0)), .dailyLimit),
    (((s.recordAt k).map fun x => decide (x.2.quota - x.2.boarded - x.2.held = 0)).getD true, .carFull)]

/-- The reason of the first check of a presentation that fails. -/
def refusalOf (checks : List (Bool × Reason)) : Option Reason := (checks.find? (·.1)).map (·.2)

/-- A record after a commit of n persons at a station, none where the commit consumes it (R149, R151). -/
def afterCommit (s : State) (station n : Nat) (r : EntRecord) : Option EntRecord :=
  let q : EntRecord :=
    { r with
      claim := none
      rides := if r.kind = .multi then r.rides.map (· - n) else r.rides
      daily := if r.kind = .period ∧ s.tsr.clockSet = true then
          r.daily.map fun d => ⟨d.cap, min 15 ((if d.rideDay = some s.tsr.day then d.today else 0) + 1), some s.tsr.day⟩
        else r.daily
      stamp := if s.tsr.clockSet then some ⟨station, s.tsr.day, s.tsr.minute⟩ else r.stamp }
  if r.kind = .single ∨ (r.kind = .multi ∧ q.rides = some 0) then none else some q

/-- A gate's taken message is answered: its toggle, its last answer, its pending reply (R163). -/
def answeredGate (t : State) (a : Nat) (toggle : Bool) (x : Answer) : Prop :=
  ∃ g ∈ t.gate a, g.toggle = some toggle ∧ g.answer = x ∧ g.replyPending = true ∧ g.online = true ∧ g.misses = 0

/-! ### What a trip and an ADVANCE leave -/

/-- The entry to TRIPPED with a first cause, from the state as it was before (R100 to R105, R130). -/
def enteredTripped (c : TripCause) (s t : State) : Prop :=
  t.haul.line = .tripped
    ∧ t.osb.first = some c ∧ t.osb.fromState = some s.haul.line ∧ t.osb.vTrip = s.spd.vMeas ∧ t.osb.further = 0
    ∧ t.haul.driveEnable = false ∧ t.osb.safetyReleased = false ∧ t.osb.serviceReleased = false
    ∧ t.haul.vPerm = 0 ∧ t.haul.vDem = 0 ∧ t.haul.vSup = s.haul.vSup ∧ t.haul.run = s.haul.run
    ∧ t.haul.torqueDue = none
    ∧ t.osb.hold = (s.osb.hold && !c.trackBrake)
    ∧ t.osb.resetElapsed = false
    ∧ t.osb.resetDue = (if s.atRest then some (s.now + sec (s.par 0x76)) else none)
    ∧ (∀ k : Car, t.record k = (s.record k).map fun r => { r with suspended := true })
    ∧ hasAttention t .trip = true ∧ hasAttention t .lineState = true

/-- A cause taken in TRIPPED: a further cause, unless it is already the first or a member (R100). -/
def tookFurther (c : TripCause) (s t : State) : Prop :=
  if s.osb.first = some c ∨ causeIn s.osb.further c then keptBut [.boarding, .result] s t
  else
    keptBut [.latch, .hold, .attention, .boarding, .result] s t
      ∧ t.osb.first = s.osb.first ∧ t.osb.fromState = s.osb.fromState ∧ t.osb.vTrip = s.osb.vTrip
      ∧ (∀ d : TripCause, causeIn t.osb.further d = (causeIn s.osb.further d || decide (d = c)))
      ∧ t.osb.hold = (s.osb.hold && !c.trackBrake)
      ∧ hasAttention t .trip = true

/-- A stop record after an ADVANCE that names its car at a time, with the door close timeout (R119, R121 to R123). -/
def advancedRecord (now timeout : Nat) (r : StopRecord) : StopRecord :=
  match r.phase with
  | .alighting =>
    if r.close.isSome then r
    else { r with phaseDue := none, close := some ⟨true, 0, false⟩, closeDue := some (now + timeout) }
  | .boarding =>
    { r with
      phase := .closing, phaseDue := none, reopening := false, close := some ⟨false, 0, false⟩,
      closeDue := some (now + timeout) }
  | .arrived => r
  | .closing => r
  | .ready => r

/-! ### What a comparison of the measured speed leaves -/

/-- OSB compares in RUNNING and HALTED alone (R92). -/
def comparesIn (l : LineState) : Prop := l = .starting ∨ l = .moving ∨ l = .intervening ∨ l = .halted

/-- What a comparison made in line state l leaves, with v_meas v, v_perm p and the limits of o (R92 to R94, R100, R101,
R104). Every limit is tested strictly. -/
def comparisonLeaves (l : LineState) (v p : Nat) (o : OsbState) (s t : State) : Prop :=
  let trips (c : TripCause) : Prop :=
    t.haul.line = .tripped ∧ t.osb.first = some c ∧ t.osb.vTrip = v ∧ t.osb.fromState = some l
  let passes : Prop := v ≤ o.vAbs ∧ v ≤ o.t2
  (comparesIn l → o.vAbs < v → trips .absOverspeed ∧ t.osb.hold = false
      ∧ ∀ d : TripCause, causeIn t.osb.further d = (decide (d = .overspeed) && decide (o.t2 < v)))
    ∧ (comparesIn l → v ≤ o.vAbs → o.t2 < v → trips .overspeed ∧ t.osb.hold = s.osb.hold ∧ t.osb.further = 0)
    ∧ (l = .moving → passes → o.t1 < v →
      t.haul.line = .intervening ∧ t.haul.vDem = 0 ∧ t.osb.serviceReleased = false ∧ t.osb.safetyReleased = true
      ∧ t.haul.driveEnable = true ∧ t.osb.interventions = min 65535 (s.osb.interventions + 1)
      ∧ hasAttention t .intervention = true ∧ hasAttention t .lineState = true)
    ∧ (l = .moving → passes → v ≤ o.t1 → t.haul.line = .moving ∧ t.osb.interventions = s.osb.interventions)
    ∧ (l = .intervening → passes → v + s.par 0x75 ≤ p →
      t.haul.line = .moving ∧ t.osb.serviceReleased = true ∧ t.haul.rampFrom = v ∧ t.haul.vDem = 0
      ∧ t.osb.interventions = s.osb.interventions ∧ hasAttention t .lineState = true)
    ∧ (l = .intervening → passes → p < v + s.par 0x75 →
      t.haul.line = .intervening ∧ t.osb.interventions = s.osb.interventions)
    ∧ (l = .starting ∨ l = .halted → passes → t.haul.line = l ∧ t.osb.interventions = s.osb.interventions)
    ∧ (¬comparesIn l → t.haul.line = l)

/-- What a comparison with v_meas v and the limits of o leaves where a trip cause of another block arrives with it: every
cause is in the latch, whichever was taken first (R96, R100, R104). -/
def tookTogether (c : TripCause) (v : Nat) (o : OsbState) (s t : State) : Prop :=
  t.haul.line = .tripped ∧ t.osb.vTrip = v
    ∧ (∀ d : TripCause, (t.osb.first = some d ∨ causeIn t.osb.further d = true) ↔
        d = c ∨ (d = .absOverspeed ∧ o.vAbs < v) ∨ (d = .overspeed ∧ o.t2 < v))
    ∧ (v ≤ o.vAbs → v ≤ o.t2 → t.osb.first = some c ∧ t.osb.further = 0)
    ∧ t.osb.hold = (s.osb.hold && !c.trackBrake && decide (v ≤ o.vAbs))

/-! ### The terms of the permitted speed -/

/-- A segment extends over a position: from its start to the next start above it, or to L (R1). Both ends count, as a
segment that a span touches at a point is under it (R4). -/
def extendsOver (g : Geometry) (y : Segment) (x : Int) : Prop :=
  some y ∈ g.segments ∧ (y.start : Int) ≤ x ∧ x ≤ g.len ∧ ∀ z, some z ∈ g.segments → y.start < z.start → x ≤ z.start

/-- The segment at a position: the one that starts last at or below it (R4). -/
def segmentHere (g : Geometry) (y : Segment) (x : Int) : Prop :=
  some y ∈ g.segments ∧ (y.start : Int) ≤ x ∧ ∀ z, some z ∈ g.segments → (z.start : Int) ≤ x → z.start ≤ y.start

/-- Two segments meet at the start of the upper one. -/
def neighbours (g : Geometry) (lower upper : Segment) : Prop :=
  some lower ∈ g.segments ∧ some upper ∈ g.segments ∧ lower.start < upper.start
    ∧ ∀ z, some z ∈ g.segments → z.start ≤ lower.start ∨ upper.start ≤ z.start

/-- The leading end of a car at a position: h ahead of it (R82). -/
def leadingEnd (s : State) (up : Bool) (p : Int) : Int := if up then p + s.par 0x11 else p - s.par 0x11

/-- A point lies in the approach between the leading end, exclusive, and its place at the stop, inclusive (R82). -/
def ahead (up : Bool) (lead stop x : Int) : Prop := if up then lead < x ∧ x ≤ stop else stop ≤ x ∧ x < lead

/-- A braking curve from a target speed at a point back to the leading end (R82). -/
def curveTo (r : RunRecord) (limit : Nat) (lead x : Int) : Nat := isqrt (limit * limit + 2 * r.aEff * (x - lead).natAbs)

/-- A speed is a term of the permitted speed of a run: one case for each row of the table of R81 (R4, R38, R81 to R83). A
leading end outside [0, L] is brought to the nearer end of it (log 10). -/
inductive SpeedTerm (s : State) (r : RunRecord) : Nat → Prop where
  | runSpeed : SpeedTerm s r r.speed
  | lineCeiling : SpeedTerm s r (s.par 0x6C)
  | inspection : s.geo.inspection = true → SpeedTerm s r (s.par 0x68)
  | homing : s.geo.referenced = false → SpeedTerm s r (s.par 0x67)
  | motorCap : s.mon.m1.raised = true → SpeedTerm s r (r.speed * s.par 0x55 / 100)
  | segmentLimit (c : Car) (y : Segment) (x : Int) :
      clipPos s.len (s.pos c - s.par 0x11) ≤ x → x ≤ clipPos s.len (s.pos c + s.par 0x11) →
      extendsOver s.geo.active y x → SpeedTerm s r y.limit
  | restrictionLimit (c : Car) (x : Restriction) :
      some x ∈ s.tsr.table → x.inForce = true →
      (x.spanStart : Int) ≤ s.pos c + s.par 0x11 → s.pos c - s.par 0x11 ≤ (x.spanEnd : Int) →
      (x.dir.admits (s.carUp c) = true ∨ x.dir.admits (r.carUp c) = true) → SpeedTerm s r x.limit
  | segmentDrop (c : Car) (here lower upper entered : Segment) (lead : Int) :
      lead = leadingEnd s (r.carUp c) (s.pos c) → segmentHere s.geo.active here (clipPos s.len lead) →
      neighbours s.geo.active lower upper → entered = (if r.carUp c then upper else lower) →
      ahead (r.carUp c) lead (leadingEnd s (r.carUp c) (s.stopOf r.target c)) upper.start →
      entered.limit < here.limit → SpeedTerm s r (curveTo r entered.limit lead upper.start)
  | restrictionDrop (c : Car) (x : Restriction) (lead near : Int) :
      lead = leadingEnd s (r.carUp c) (s.pos c) → near = (if r.carUp c then x.spanStart else x.spanEnd : Nat) →
      some x ∈ s.tsr.table → x.inForce = true → x.dir.admits (r.carUp c) = true →
      ahead (r.carUp c) lead (leadingEnd s (r.carUp c) (s.stopOf r.target c)) near →
      SpeedTerm s r (curveTo r x.limit lead near)
  | stopBefore : (s.par 0x10 : Int) < s.remaining r →
      SpeedTerm s r (max (s.par 0x65) (isqrt (2 * r.aEff * (s.remaining r - s.par 0x66).toNat)))
  | stopWithin : s.remaining r ≤ s.par 0x10 → SpeedTerm s r 0

/-- A speed is the least of the terms, clamped to 12,000 mm/s (R81). -/
def leastTerm (s : State) (r : RunRecord) (v : Nat) : Prop :=
  (∀ x, SpeedTerm s r x → v ≤ x) ∧ v ≤ 12000 ∧ (v = 12000 ∨ SpeedTerm s r v)

/-! ### Invariants -/

/-- The clock's fields lie in their ranges, and an unset clock stands at 0 and does not run (R32). -/
def clockInv (s : State) : Prop :=
  s.tsr.day ≤ 65535 ∧ s.tsr.minute ≤ 1439
    ∧ (s.tsr.clockSet = false → s.tsr.day = 0 ∧ s.tsr.minute = 0 ∧ s.tsr.minuteDue = none)

/-- The outputs and the published speeds follow the line state (R63, R64, R81, R85, R86, R102). -/
def lineInv (s : State) : Prop :=
  s.haul.driveEnable = s.haul.line.running
    ∧ (s.osb.safetyReleased = true ↔ s.haul.line ≠ .parked ∧ s.haul.line ≠ .tripped)
    ∧ (s.osb.serviceReleased = true ↔ s.haul.line = .moving)
    ∧ (s.haul.line ≠ .moving → s.haul.vDem = 0)
    ∧ (s.haul.line.running = false → s.haul.vPerm = 0)
    ∧ (s.haul.line = .parked ∨ s.haul.line = .dwell → s.haul.vSup = 0)
    ∧ s.haul.vDem ≤ s.haul.vPerm ∧ s.haul.vPerm ≤ s.haul.vSup ∧ s.haul.vSup ≤ 12000
    ∧ (s.haul.line.running = false → s.spd.rollback = false)

/-- A speed channel's fields agree with its capture state (section 2.2, R21 to R24). -/
def channelInv (c : SpeedChannel) : Prop :=
  (c.capture = .standstill ↔ c.standDue = none)
    ∧ (c.capture = .measuring ↔ c.period.isSome)
    ∧ (c.capture ≠ .measuring → c.speed = 0)
    ∧ c.speed ≤ 13000

/-- The channels, v_meas, the line-at-rest flag and the rest timer agree (R22 to R26). -/
def speedInv (s : State) : Prop :=
  channelInv s.spd.rope ∧ channelInv s.spd.drive
    ∧ s.spd.vMeas = max s.spd.rope.speed s.spd.drive.speed
    ∧ ((s.spd.rope.capture = .standstill ∧ s.spd.drive.capture = .standstill)
        ↔ (s.spd.restSince.isSome ∨ s.spd.restDue.isSome))
    ∧ ¬(s.spd.restSince.isSome ∧ s.spd.restDue.isSome)

/-- The entitlement table: slots strictly rising below 4,096, every record in its home bucket, no media number twice
(R136, R137). -/
def tableInv (s : State) : Prop :=
  entWf s.ent.table = true ∧ (s.ent.table.map fun p => p.2.media).Nodup

/-- Every list of fixed length has its length (R1, R10, R36, R155, R156). -/
def shapeInv (s : State) : Prop :=
  s.geo.active.stations.length = 4 ∧ s.geo.active.segments.length = 48
    ∧ s.geo.staged.stations.length = 4 ∧ s.geo.staged.segments.length = 48
    ∧ s.geo.datum.length = 4 ∧ s.tsr.table.length = 32 ∧ s.tsr.ended.length ≤ 8
    ∧ s.adm.gates.length = 16 ∧ s.adm.boarding.length = 4
    ∧ s.stp.carA.kept.length ≤ 4 ∧ s.stp.carB.kept.length ≤ 4

/-- An active geometry has passed the checks of R5 that do not depend on a parameter. -/
def geometryInv (g : Geometry) : Prop :=
  g.header = none
    ∨ (checkHeader g && checkSegments g && checkTerminals g && checkIntermediates g && checkExposed g
        && checkRanges g) = true

/-- pA lies within the counting bounds, and every restriction spans a stretch of [0, L] (R9, R41, R46, R55). -/
def positionInv (s : State) : Prop :=
  geometryInv s.geo.active
    ∧ s.geo.pA ≤ s.countBound
    ∧ ∀ x ∈ s.tsr.table.filterMap id, s.hasGeometry = true ∧ x.spanStart < x.spanEnd ∧ x.spanEnd ≤ s.len

/-- The largest values that a braking curve is computed from: a limit of 12,000 mm/s and a deceleration of 1,200 mm/s²
(R84). -/
def curvesInv (s : State) : Prop :=
  (∀ y, some y ∈ s.geo.active.segments → y.limit ≤ 12000) ∧ (∀ x, some x ∈ s.tsr.table → x.limit ≤ 12000)
    ∧ ∀ r, s.haul.run = some r → r.aEff ≤ 1200

/-- A stop record is present where the line state asks for one (R63, R70, R116): the two records name stations k and
3 − k, are suspended exactly in TRIPPED, and are READY while RUNNING. -/
def recordInv (s : State) : Prop :=
  match s.record .a, s.record .b with
  | none, none =>
    s.haul.line ≠ .dwell
      ∧ (s.haul.line = .starting → ∃ r ∈ s.haul.run, r.origin = .halted)
  | some x, some y =>
    (s.haul.line = .dwell ∨ s.haul.line = .tripped
        ∨ (s.haul.line = .starting ∧ x.phase = .ready ∧ y.phase = .ready ∧ ∃ r ∈ s.haul.run, r.origin = .dwell))
      ∧ x.station ≤ 3 ∧ y.station = 3 - x.station
      ∧ x.suspended = decide (s.haul.line = .tripped) ∧ y.suspended = decide (s.haul.line = .tripped)
  | _, _ => False

/-- A run record is present in RUNNING and absent in PARKED and DWELL (R63, R70), and the torque-ready timer runs in
STARTING alone (R73, R74). -/
def runInv (s : State) : Prop :=
  (s.running = true → s.haul.run.isSome) ∧ (s.haul.line = .parked ∨ s.haul.line = .dwell → s.haul.run = none)
    ∧ (s.haul.line ≠ .starting → s.haul.torqueDue = none)

/-- The persons held by the open claims against a car's stop record. -/
def heldFor (c : Car) (claims : List Claim) : Nat := ((claims.filter fun x => x.car == c).map (·.persons)).sum

/-- The counts of a stop record (R117, R123, R165): nothing before BOARDING, the held count is that of the open claims,
and the persons held with the passages on time never exceed the quota, nor the quota the car capacity. -/
def countsInv (s : State) (c : Car) : Prop :=
  match s.record c with
  | none => heldFor c s.adm.claims = 0
  | some r =>
    r.held = heldFor c s.adm.claims ∧ r.late ≤ r.boarded ∧ r.boarded ≤ 250
      ∧ r.boarded - r.late + r.held ≤ r.quota ∧ r.quota ≤ s.capacity
      ∧ (r.phase = .arrived ∨ r.phase = .alighting → r.boarded = 0 ∧ r.held = 0)
      ∧ (r.phase = .ready → r.held = 0)

/-- The claims list and the table agree (R165): ids and gates are held once, every claim names one occupied slot whose
record carries it, every claim carried is in the list, and every claim holds a person. -/
def claimsInv (s : State) : Prop :=
  (s.adm.claims.map (·.id)).Nodup ∧ (s.adm.claims.map (·.gate)).Nodup
    ∧ (∀ x ∈ s.adm.claims, x.id ≠ 0 ∧ 1 ≤ x.gate ∧ x.gate ≤ 16 ∧ 1 ≤ x.persons
        ∧ ∃ r ∈ entGet s.ent.table x.slot, r.media = x.media ∧ r.claim = some ⟨x.gate, x.id⟩)
    ∧ ∀ p ∈ s.ent.table, ∀ k ∈ p.2.claim, ∃ x ∈ s.adm.claims, x.slot = p.1 ∧ x.gate = k.gate ∧ x.id = k.id

/-- The boarding states that the gates are told are those of the state as it stands (R156). -/
def boardingInv (s : State) : Prop :=
  s.adm.boarding = [s.stationBoarding 0, s.stationBoarding 1, s.stationBoarding 2, s.stationBoarding 3]

/-- What the rules on stops, gates and claims keep between them. -/
def admissionInv (s : State) : Prop :=
  shapeInv s ∧ tableInv s ∧ recordInv s ∧ runInv s ∧ boardingInv s ∧ countsInv s .a ∧ countsInv s .b ∧ claimsInv s

end Sys2Proof.Machine
end

