-- ==== Sys2Proof/WellFormed.lean ====
section
/-! DEFINITION. Which terms of Instr stand for something that can reach the device: an unknown code is unknown, a frame
has a code other than the read code, a received frame has a character, a claim id is 1 to 255. -/

namespace Sys2Proof

/-- The command codes of spec 11, section 11.2. -/
def commandCodes : List Nat :=
  [0x01, 0x02, 0x03, 0x04, 0x10, 0x11, 0x12, 0x13, 0x14, 0x20, 0x21, 0x22, 0x23, 0x24,
    0x30, 0x31, 0x32, 0x33, 0x34, 0x40, 0x41, 0x42, 0x43, 0x44, 0x45, 0x50, 0x51, 0x52, 0x53,
    0x60, 0x61, 0x62, 0x63, 0x64, 0x65, 0x66, 0x70, 0x71, 0x80, 0x81, 0x82, 0x83]

/-- INVALID answers a code that is no command's and is not the read code 00h (R175, R177). -/
def wfUnknownCode (code : Byte) : Bool := code != 0 && !commandCodes.contains code.toNat

/-- The first byte of a command frame is not the read code 00h (R175). -/
def wfFrameCode (code : Byte) : Bool := code != 0

/-- A received frame has at least one character (R113, R161). -/
def wfReceived (frame : List Byte) : Bool := !frame.isEmpty

/-- A claim id is 1 to 255 (R165). -/
def wfClaimId (id : Byte) : Bool := id != 0

/-- A command that can reach the device. Every form of a line-link command can, a wrong parameter length included. -/
def Instr.wf : Instr → Bool
  | .setClock _ => true
  | .getClock _ => true
  | .setParameter _ => true
  | .getParameter _ => true
  | .writeStagedHeader _ => true
  | .writeStagedStation _ => true
  | .writeStagedSegment _ => true
  | .readGeometry _ => true
  | .commitGeometry _ => true
  | .enterInspection _ => true
  | .leaveInspection _ => true
  | .home _ => true
  | .unpark _ => true
  | .park _ => true
  | .startRun _ => true
  | .stopRun _ => true
  | .resume _ => true
  | .emergencyStop _ => true
  | .resetTrip _ => true
  | .advance _ => true
  | .reopenDoors _ => true
  | .ackAlarm _ => true
  | .evacuate _ => true
  | .endEvacuation _ => true
  | .readStopRecord _ => true
  | .addRestriction _ => true
  | .amendRestriction _ => true
  | .retireRestriction _ => true
  | .readRestriction _ => true
  | .addEntitlement _ => true
  | .amendEntitlement _ => true
  | .blockEntitlement _ => true
  | .unblockEntitlement _ => true
  | .retireEntitlement _ => true
  | .lookUpEntitlement _ => true
  | .count _ => true
  | .setGate _ => true
  | .readGateStatus _ => true
  | .readLineStatus _ => true
  | .readMonitor _ => true
  | .sense _ => true
  | .softReset _ => true
  | .frameError code => wfFrameCode code
  | .invalid code => wfUnknownCode code
  | .busy code => wfFrameCode code
  | .countingEdge _ _ _ => true
  | .standstillTimeout _ => true
  | .restConfirm => true
  | .slipTimerExpiry => true
  | .datumEdge _ => true
  | .monitorSample _ _ => true
  | .minuteBoundary => true
  | .haulSample => true
  | .pwmPeriod => true
  | .torqueReady => true
  | .torqueReadyTimeout => true
  | .emergencyStopInput _ => true
  | .driveFaultInput _ => true
  | .tripResetTime => true
  | .downlink _ => true
  | .uplink _ _ frame => wfReceived frame
  | .carLinkTimeout _ => true
  | .doorFault _ => true
  | .alightTimeExpiry _ => true
  | .boardTimeExpiry _ => true
  | .reopenTimeExpiry _ => true
  | .pollSlot => true
  | .gateResponse _ frame => wfReceived frame
  | .responseWindowExpiry => true
  | .claimLapse id => wfClaimId id
  | .powerOnReset _ => true
  | .takenPhaseEdge _ _ _ _ => true
  | .datumLevelInactive _ => true
  | .torqueReadyInactive => true

end Sys2Proof
end

