-- ==== Sys2Proof/Certificates/Slice0/Obligations.lean ====
section
/-! DEFINITION. The statements for the provers. -/

section

open Sys2Proof Sys2Proof.Machine

/-! ### The block as a whole -/

/-- Taking a command from the queue is running its meaning on the state with the rest of the queue; an empty queue lets
one microsecond of the timebase pass, which is the model's own choice (log 2). -/
def Obligations.StepRunsTheFrontCommand : Prop :=
  (∀ (c : Instr) (rest : List Instr) (s : State),
      s.pending = c :: rest → step s = exec c { s with pending := rest })
    ∧ ∀ s : State, s.pending = [] → step s = .next { s with now := s.now + 1 }

/-- What power-on reset leaves where the spec states it (R1, R8, R17, R24, R26, R32, R36, R45, R49, R52, R63, R90, R91,
R104, R105, R111, R112, R135, R136, R155 to R158, R165, R174, R183, R187). The times at
which the samples, the rest timer, the downlinks and the first poll slot fall are counted from the timebase value 0 (log
2). -/
def Obligations.ResetStateHoldsTheStatedValues : Prop :=
  let s := State.reset
  s.geo.active = Geometry.empty ∧ s.geo.staged = Geometry.empty ∧ s.geo.pA = 0 ∧ s.geo.referenced = false
    ∧ s.geo.travelUp = true ∧ s.geo.inspection = false
    ∧ (∀ c ∈ [s.spd.rope, s.spd.drive], c.capture = .standstill ∧ c.speed = 0 ∧ c.period = none ∧ c.forward = true
        ∧ c.standDue = none)
    ∧ s.spd.vMeas = 0 ∧ s.spd.restSince = none ∧ s.spd.restDue = some 2000000 ∧ s.spd.slip = .absent
    ∧ s.spd.slipDue = none ∧ s.spd.rollback = false
    ∧ s.tsr.clockSet = false ∧ s.tsr.day = 0 ∧ s.tsr.minute = 0 ∧ s.tsr.minuteDue = none
    ∧ (∀ n < 32, s.entry n = none) ∧ s.tsr.ended = [] ∧ s.tsr.overflow = false
    ∧ (∀ c ∈ [s.mon.wind, s.mon.tension, s.mon.rail, s.mon.motor], c.raw = 0 ∧ c.value = 0 ∧ c.valid = false
        ∧ c.fault = false ∧ c.due = 100000)
    ∧ (∀ k ∈ [s.mon.w1, s.mon.w2, s.mon.frost, s.mon.m1, s.mon.m2, s.mon.slack, s.mon.overtension],
        k.raised = false ∧ k.raiseCount = 0 ∧ k.clearCount = 0)
    ∧ s.haul.line = .parked ∧ s.haul.haltCause = .noCause ∧ s.haul.run = none ∧ s.haul.loadA = none
    ∧ s.haul.loadB = none ∧ s.haul.vPerm = 0 ∧ s.haul.vSup = 0 ∧ s.haul.vDem = 0 ∧ s.haul.driveEnable = false
    ∧ s.haul.pwmDuty = 0 ∧ s.haul.driveDirHigh = true ∧ s.haul.torqueDue = none ∧ s.haul.haulDue = 10000
    ∧ s.osb.t1 = 150 ∧ s.osb.t2 = 400 ∧ s.osb.vAbs = 11500 ∧ s.osb.interventions = 0 ∧ s.osb.first = none ∧ s.osb.fromState = none
    ∧ s.osb.further = 0 ∧ s.osb.hold = true ∧ s.osb.resetDue = none ∧ s.osb.resetElapsed = false
    ∧ s.osb.safetyReleased = false ∧ s.osb.serviceReleased = false
    ∧ (∀ c ∈ [s.stp.carA, s.stp.carB], c.live = false ∧ c.linkDue = none ∧ c.downDue = 0 ∧ c.kept = []
        ∧ c.report = none ∧ c.record = none ∧ c.pendingAlarm = false ∧ c.admitted = 0 ∧ c.evacLeft = false
        ∧ c.evacRight = false)
    ∧ s.ent.table = []
    ∧ (∀ g ∈ s.adm.gates, g.station = none ∧ g.enabled = false ∧ g.online = false ∧ g.misses = 0
        ∧ g.health = .unreported ∧ g.toggle = none ∧ g.replyPending = false ∧ g.memory = none)
    ∧ s.adm.boarding = List.replicate 4 .outOfService ∧ s.adm.broadcastPending = true ∧ s.adm.pollDue = some 10000
    ∧ s.adm.pollCount = 0 ∧ s.adm.slotPolls = false ∧ s.adm.normalPtr = 0 ∧ s.adm.urgentPtr = 0
    ∧ s.adm.claims = [] ∧ s.adm.lastClaimId = 0
    ∧ s.lnk.buffer = none ∧ s.statusByte = 1
    ∧ s.lnk.attention = attentionMask .powerOn ∧ s.attentionLow = true
    ∧ ∀ r ∈ paramTable, paramGet s.params r.number = r.typ

/-- POWER_ON_RESET takes the levels at the pins as the taken levels and gives every other part its value after reset; an
emergency-stop input already active is handed to OSB, which records it as a further cause in PARKED and raises TRIP (R10,
R19, R73, R97, R100, R111, R183, R187). That the torque-ready level is sampled too is the model's choice (log 25), and so
is that the row is the end of reset and leaves the waiting commands and the count of choices (log 38). -/
def Obligations.PowerOnResetTakesTheSampledLevels : Prop :=
  ∀ (x : Levels) (s : State), ∃ t, exec (.powerOnReset x) s = .next t
    ∧ keptBut [.datum, .rope, .drive, .torque, .inputs, .latch, .attention, .choices, .queue] State.reset t
    ∧ t.pending = s.pending ∧ t.choices = s.choices
    ∧ t.geo.datum = [x.datum0, x.datum1, x.datum2, x.datum3]
    ∧ t.spd.rope = { State.reset.spd.rope with levelA := x.ropeA, levelB := x.ropeB }
    ∧ t.spd.drive = { State.reset.spd.drive with levelA := x.driveA, levelB := x.driveB }
    ∧ t.haul.torqueReady = x.torqueReady ∧ t.haul.torqueDue = none
    ∧ t.osb.estop = x.estop ∧ t.osb.driveFault = x.driveFault ∧ t.osb.first = none
    ∧ (∀ c : TripCause, causeIn t.osb.further c = (x.estop && decide (c = .estop)))
    ∧ t.lnk.attention = attentionMask .powerOn ||| (if x.estop then attentionMask .trip else 0)

/-- Every command, with every operand and in every state, answers a next state, leaves the queue to the step, and changes
no part of the state that the table partsOf does not name for it. The block stops at nothing: R178, R180, R96, R113,
R161. -/
def Obligations.EveryCommandCompletesWithinItsParts : Prop :=
  ∀ (c : Instr) (s : State), ∃ t, exec c s = .next t ∧ t.pending = s.pending ∧ keptBut (partsOf c) s t

/-- Only SENSE, an accepted SOFT RESET and power-on reset take a cause out of the attention set (R183, R184, R186,
R187). -/
def Obligations.AttentionCausesStayUntilSensedOrReset : Prop :=
  ∀ (c : Instr) (s t : State), exec c s = .next t →
    (∀ p, c ≠ .sense p) → (∀ p, c ≠ .softReset p) → (∀ x, c ≠ .powerOnReset x) →
    attentionKept s t

/-- Every line-link command ends its execution with every change made and a result that answers its code readable in the
buffer; one that finishes with a refusal leaves the state of the device as it found it. A parameter length that does not match
the form gives BAD PARAMETER ahead of every check of its own rule (R178, R179, R180). Until the command is taken the status
is EXECUTING, and from then on RESULT READY where no further command waits: that a command executes while it stands first in
the queue is log 4. -/
def Obligations.LinkCommandAnswersAndRefusalChangesNothing : Prop :=
  ∀ (c : Instr) (s : State) (code : Byte), linkCode c = some code →
    ({ s with pending := c :: s.pending } : State).statusByte = 2
    ∧ (hasWrongLength c = true → exec c s = .next (answeredOnly s .badParameter code []))
    ∧ ∃ t r, exec c s = .next t ∧ t.lnk.buffer = some r ∧ t.now = s.now ∧ r.answered = code
      ∧ r.code ≠ .busy ∧ r.code ≠ .frameError ∧ r.code ≠ .invalid
      ∧ (r.code ≠ .ok → t = answeredOnly s r.code code r.data)
      ∧ (r.code ≠ .ok → r.code ≠ .refused → r.code ≠ .badGeometry → r.data = [])
      ∧ (r.code = .refused ∨ r.code = .badGeometry → r.data.length = 1)
      ∧ t.executing = s.executing ∧ (s.executing = false → t.statusByte = 3)

/-! ### Invariants -/

/-- The state after power-on reset meets every invariant stated below. -/
def Obligations.ResetMeetsEveryInvariant : Prop :=
  lineInv State.reset ∧ speedInv State.reset ∧ tableInv State.reset ∧ shapeInv State.reset ∧ clockInv State.reset
    ∧ paramsWf State.reset.params = true ∧ positionInv State.reset ∧ admissionInv State.reset

/-- Every step keeps the outputs and the published speeds in agreement with the line state: the drive enable (R63, R64),
the two brakes (R102), v_dem, v_perm and v_sup and the order between them (R80, R81, R85, R86), rollback (R29). -/
def Obligations.OutputsAndSpeedsFollowTheLineState : Prop :=
  ∀ s t : State, lineInv s → step s = .next t → lineInv t

/-- Every step keeps the speed channels, v_meas, the line-at-rest flag and the rest timer in agreement (R20 to R26). -/
def Obligations.SpeedChannelsAgreeWithTheRestFlag : Prop :=
  ∀ s t : State, speedInv s → step s = .next t → speedInv t

/-- Every step keeps the entitlement table in order: each media number is held by at most one slot, and every occupied
slot lies in the bucket its number hashes to (R136, R137). -/
def Obligations.EntitlementTableStaysInItsBuckets : Prop :=
  ∀ s t : State, tableInv s → step s = .next t → tableInv t

/-- Every step keeps every list of fixed length at its length, the clock in its ranges, and every parameter within its
range and every ordering between two of them (R1, R10, R32, R36, R45, R112, R155, R156, R181). -/
def Obligations.ListsClockAndParametersStayInRange : Prop :=
  ∀ s t : State, shapeInv s ∧ clockInv s ∧ paramsWf s.params = true → step s = .next t →
    shapeInv t ∧ clockInv t ∧ paramsWf t.params = true

/-- Every step keeps pA within its counting bounds, the active geometry one that has passed the checks, and every
restriction on a stretch of [0, L] (R5, R6, R7, R9, R12, R15, R16, R41, R46, R55 to R58). -/
def Obligations.PositionAndSpansStayInBounds : Prop :=
  ∀ s t : State, shapeInv s ∧ clockInv s ∧ paramsWf s.params = true → positionInv s → step s = .next t → positionInv t

/-- Every step keeps what the rules on stops, gates and claims hold between them: a stop record exists exactly where the
line state asks for one (R63, R116), the boarding states told are those of the state as it stands (R156), every open
claim names one occupied slot whose record carries that claim and no other, each gate holds at most one open claim, and
the persons held with the passages on time never exceed the quota, nor the quota the car capacity (R165). -/
def Obligations.ClaimsRecordsAndTableAgree : Prop :=
  ∀ s t : State, paramsWf s.params = true → admissionInv s → step s = .next t → admissionInv t

/-! ### Frames of the line link -/

/-- Reading the frame that a command is written as gives the command back, with every operand at every value (R176, R177,
R188 to R191, section 11.2). -/
def Obligations.DecodeOfEncodeIsTheCommand : Prop :=
  ∀ (i : Instr) (bytes : List Byte), encodeFrame i = some bytes → decodeFrame bytes = some i

/-- How a released transaction is judged (R175 to R177): nothing for a read or a frame cut short; FRAME ERROR for a
length byte above 60, a byte count that does not match, or a wrong CRC; INVALID for an unknown code; and BUSY for any
complete frame while a command is executing. -/
def Obligations.ReleasedFrameIsJudgedInOrder : Prop :=
  (∀ code : Byte, decodeFrame [] = none ∧ decodeFrame [code] = none)
    ∧ ∀ (code n : Byte) (rest : List Byte),
      (code = 0 → decodeFrame (code :: n :: rest) = none)
      ∧ (code ≠ 0 → 60 < n.toNat → decodeFrame (code :: n :: rest) = some (.frameError code))
      ∧ (code ≠ 0 → n.toNat ≤ 60 → rest.length < n.toNat + 2 → decodeFrame (code :: n :: rest) = none)
      ∧ (code ≠ 0 → n.toNat ≤ 60 → n.toNat + 2 < rest.length →
          decodeFrame (code :: n :: rest) = some (.frameError code))
      ∧ (code ≠ 0 → n.toNat ≤ 60 → rest.length = n.toNat + 2 →
          rest.drop n.toNat ≠ be2 (crc16 (code :: n :: rest.take n.toNat)).toNat →
          decodeFrame (code :: n :: rest) = some (.frameError code))
      ∧ (code ≠ 0 → n.toNat ≤ 60 → rest.length = n.toNat + 2 →
          rest.drop n.toNat = be2 (crc16 (code :: n :: rest.take n.toNat)).toNat →
          (code.toNat ∉ commandCodes → decodeFrame (code :: n :: rest) = some (.invalid code))
          ∧ (code.toNat ∈ commandCodes → ∃ i, linkCode i = some code ∧ decodeFrame (code :: n :: rest) = some i))
      ∧ (∀ i, decodeFrame (code :: n :: rest) = some i → judgeFrame true (code :: n :: rest) = some (.busy code)
          ∧ judgeFrame false (code :: n :: rest) = some i)

/-- FRAME ERROR and INVALID replace the result buffer at once, and no command executes; BUSY writes its result while a
command executes, whose own result replaces it at the end of that execution. Nothing outside the link changes. A read shifts
out the status byte and any result readable, with fill; a command frame has the status byte shifted out in every byte (R175,
R177, R179). That a command executes while it is the first frame of the queue, BUSY rows apart, and that a BUSY row with no
command executing changes nothing, is the model's choice (log 4). -/
def Obligations.FrameOutcomesWriteTheResultBuffer : Prop :=
  (∀ (code : Byte) (s : State),
    (∃ t, exec (.frameError code) s = .next t ∧ keptBut [.result] s t ∧ t.lnk.attention = s.lnk.attention
      ∧ t.lnk.buffer = some ⟨.frameError, code, []⟩ ∧ (s.executing = false → t.statusByte = 3))
    ∧ (∃ t, exec (.invalid code) s = .next t ∧ keptBut [.result] s t ∧ t.lnk.attention = s.lnk.attention
      ∧ t.lnk.buffer = some ⟨.invalid, code, []⟩ ∧ (s.executing = false → t.statusByte = 3))
    ∧ (s.executing = true → ∃ t, exec (.busy code) s = .next t ∧ keptBut [.result] s t
      ∧ t.lnk.attention = s.lnk.attention ∧ t.lnk.buffer = some ⟨.busy, code, []⟩ ∧ t.statusByte = 2
      ∧ ∀ c own rest, linkCode c = some own → s.pending = c :: rest →
        ∃ u r, step t = .next u ∧ u.lnk.buffer = some r ∧ r.code ≠ .busy ∧ r.answered = own
          ∧ (commandWaits rest = false → u.statusByte = 3))
    ∧ (s.executing = false → exec (.busy code) s = .next s))
  ∧ (commandWaits [] = false
    ∧ ∀ (i : Instr) (rest : List Instr),
      (∀ code, linkCode i = some code → commandWaits (i :: rest) = true)
      ∧ (∀ code x, i = .frameError code ∨ i = .invalid code ∨ i = .powerOnReset x → commandWaits (i :: rest) = false)
      ∧ (linkCode i = none → (∀ code x, i ≠ .frameError code ∧ i ≠ .invalid code ∧ i ≠ .powerOnReset x) →
          commandWaits (i :: rest) = commandWaits rest))
  ∧ ∀ s : State,
    s.shiftedOut [] = []
    ∧ (∀ first rest, first ≠ 0 →
      s.shiftedOut (first :: rest) = List.replicate (rest.length + 1) s.statusByte)
    ∧ (∀ rest, s.statusByte = 1 ∨ (s.statusByte = 2 ∧ ∀ r ∈ s.lnk.buffer, r.code ≠ .busy) →
      s.shiftedOut (0 :: rest) = s.statusByte :: List.replicate rest.length 0)
    ∧ ∀ rest r, s.lnk.buffer = some r → s.statusByte = 3 ∨ r.code = .busy →
      let fields := [BitVec.ofNat 8 (resultCodeValue r.code), r.answered, BitVec.ofNat 8 r.data.length] ++ r.data
      let whole := s.statusByte :: (fields ++ be2 (crc16 fields).toNat)
      s.shiftedOut (0 :: rest)
        = whole.take (rest.length + 1) ++ List.replicate (rest.length + 1 - whole.length) 0

/-! ### Clock, parameters, reads -/

/-- GET CLOCK and GET PARAMETER are accepted in every line state and change nothing. GET CLOCK returns OK with the set flag,
the day and the minute as they stand, an unset clock as day 0, minute 0 with the flag clear (R34). GET PARAMETER: a number
outside the table gives BAD PARAMETER; any other returns OK with the value held, the class and the Min and Max (R182). The
order of the five bytes of the clock, and class S as 0 and class O as 1, are read from R189 (log 15). -/
def Obligations.ClockAndParameterReadsReturnWhatStands : Prop :=
  ∀ (x : Byte) (s : State),
    exec (.getClock (.fields {})) s
      = .next (answeredOnly s .ok 0x02 (flag1 s.tsr.clockSet ++ be2 s.tsr.day ++ be2 s.tsr.minute))
    ∧ (clockInv s → s.tsr.clockSet = false →
        exec (.getClock (.fields {})) s = .next (answeredOnly s .ok 0x02 [0, 0, 0, 0, 0]))
    ∧ (paramRow x.toNat = none →
      exec (.getParameter (.fields x)) s = .next (answeredOnly s .badParameter 0x04 []))
    ∧ ∀ r, paramRow x.toNat = some r →
      r ∈ paramTable ∧ r.number = x.toNat
      ∧ exec (.getParameter (.fields x)) s
        = .next (answeredOnly s .ok 0x04
            (sbe4 (paramGet s.params x.toNat) ++ [if r.classS then 0 else 1] ++ sbe4 r.min ++ sbe4 r.max))

/-- SET PARAMETER: the four checks in order, and with all passed the value is stored, every other parameter and the rest
of the state standing as they were (R181). -/
def Obligations.SetParameterStoresAValueThatPasses : Prop :=
  ∀ (a : ParamArgs) (s : State), paramsWf s.params = true →
    (paramRow a.number.toNat = none → ∃ t, exec (.setParameter (.fields a)) s = .next t
        ∧ answered t .badParameter 0x03 [])
    ∧ ∀ r, paramRow a.number.toNat = some r →
      (a.value.toInt < r.min ∨ r.max < a.value.toInt →
        ∃ t, exec (.setParameter (.fields a)) s = .next t ∧ answered t .badParameter 0x03 [])
      ∧ (r.min ≤ a.value.toInt → a.value.toInt ≤ r.max → r.classS = true → s.haul.line ≠ .parked →
        ∃ t, exec (.setParameter (.fields a)) s = .next t ∧ answered t .wrongState 0x03 [])
      ∧ (r.min ≤ a.value.toInt → a.value.toInt ≤ r.max → (r.classS = false ∨ s.haul.line = .parked) →
        (∀ o ∈ orderings, o.low = r.number →
          o.kind.holds a.value.toInt (paramGet s.params o.high) = true) →
        (∀ o ∈ orderings, o.high = r.number →
          o.kind.holds (paramGet s.params o.low) a.value.toInt = true) →
        ∃ t, exec (.setParameter (.fields a)) s = .next t ∧ answered t .ok 0x03 []
          ∧ keptBut [.params, .result] s t ∧ paramGet t.params r.number = a.value.toInt
          ∧ ∀ m, m ≠ r.number → paramGet t.params m = paramGet s.params m)
      ∧ (r.min ≤ a.value.toInt → a.value.toInt ≤ r.max → (r.classS = false ∨ s.haul.line = .parked) →
        ((∃ o ∈ orderings, o.low = r.number ∧
            o.kind.holds a.value.toInt (paramGet s.params o.high) = false)
          ∨ ∃ o ∈ orderings, o.high = r.number ∧
            o.kind.holds (paramGet s.params o.low) a.value.toInt = false) →
        ∃ t, exec (.setParameter (.fields a)) s = .next t ∧ answered t .badParameter 0x03 [])

/-- SET CLOCK in every line state and either inspection state: a minute above 1,439 gives BAD PARAMETER with the clock
unchanged; otherwise the flag, the day and the minute are set, the sub-minute count restarts, and the boundary passes are
made at the new time before the result is readable: due PENDING entries go IN FORCE, entries with a due until-time go FREE
and join the ended list, and RESTRICTION ENDED is raised for these alone. MINUTE_BOUNDARY advances the minute, and at minute
1,440 the day, and makes the same passes at the new time; at day 65,535, minute 1,439 the sub-minute count stops and nothing
else happens (R32, R33, R35, R45). The order in which one pass records several entries (log 14), the next boundary a minute
after this one's deadline (log 28) and the time at which an expiry row is taken (log 3) are the model's. -/
def Obligations.SetClockAndMinuteBoundaryMakeThePasses : Prop :=
  (∀ (a : ClockArgs) (s : State),
    (1439 < a.minute.toNat → ∃ t, exec (.setClock (.fields a)) s = .next t ∧ answered t .badParameter 0x01 []
      ∧ keptBut [.result] s t)
    ∧ (a.minute.toNat ≤ 1439 → s.tsr.ended.length ≤ 8 → s.tsr.table.length = 32 →
      let now : ServiceTime := ⟨a.day.toNat, a.minute.toNat⟩
      let gone := expiredRecords now s.tsr.table
      ∃ t, exec (.setClock (.fields a)) s = .next t ∧ answered t .ok 0x01 []
        ∧ keptBut [.clock, .restrictions, .ended, .attention, .result] s t
        ∧ t.tsr.clockSet = true ∧ t.tsr.day = now.day ∧ t.tsr.minute = now.minute
        ∧ t.tsr.minuteDue = some (s.now + 60000000)
        ∧ t.tsr.table = s.tsr.table.map (entryAfterPasses now)
        ∧ t.tsr.ended = lastEight (s.tsr.ended ++ gone)
        ∧ t.tsr.overflow = (s.tsr.overflow || decide (8 < s.tsr.ended.length + gone.length))
        ∧ t.lnk.attention = s.lnk.attention ||| (if gone = [] then 0 else attentionMask .restrictionEnded)))
  ∧ ∀ (s : State) (due : Nat), s.tsr.minuteDue = some due → clockInv s → s.tsr.ended.length ≤ 8 →
    s.tsr.table.length = 32 →
    (s.tsr.day = 65535 ∧ s.tsr.minute = 1439 →
      exec .minuteBoundary s = .next { s with now := max s.now due, tsr := { s.tsr with minuteDue := none } })
    ∧ (¬(s.tsr.day = 65535 ∧ s.tsr.minute = 1439) →
      let now : ServiceTime := if s.tsr.minute = 1439 then ⟨s.tsr.day + 1, 0⟩ else ⟨s.tsr.day, s.tsr.minute + 1⟩
      let gone := expiredRecords now s.tsr.table
      ∃ t, exec .minuteBoundary s = .next t
        ∧ keptBut [.time, .clock, .restrictions, .ended, .attention] s t
        ∧ t.now = max s.now due ∧ t.tsr.clockSet = s.tsr.clockSet ∧ t.tsr.day = now.day ∧ t.tsr.minute = now.minute
        ∧ t.tsr.minuteDue = some (due + 60000000)
        ∧ t.tsr.table = s.tsr.table.map (entryAfterPasses now)
        ∧ t.tsr.ended = lastEight (s.tsr.ended ++ gone)
        ∧ t.tsr.overflow = (s.tsr.overflow || decide (8 < s.tsr.ended.length + gone.length))
        ∧ t.lnk.attention = s.lnk.attention ||| (if gone = [] then 0 else attentionMask .restrictionEnded))

/-! ### Geometry and mode -/

/-- The three staged writes replace the entry they name, or empty it with the marker, and nothing else; an index out of
range or a field too wide gives BAD PARAMETER and changes nothing (R2, with the widths of R190). -/
def Obligations.StagedWritesReplaceOneEntry : Prop :=
  (∀ (a : HeaderArgs) (s : State), ∃ t, exec (.writeStagedHeader (.fields a)) s = .next t ∧ answered t .ok 0x10 []
      ∧ keptBut [.staged, .result] s t
      ∧ t.geo.staged = { s.geo.staged with header := some ⟨a.trackLen.toNat, a.count.toNat⟩ })
  ∧ (∀ (a : StationArgs) (s : State), a.index.toNat ≤ 3 →
      (a.marker = 1 → ∃ t, exec (.writeStagedStation (.fields a)) s = .next t ∧ answered t .ok 0x11 []
        ∧ keptBut [.staged, .result] s t
        ∧ t.geo.staged = { s.geo.staged with stations := s.geo.staged.stations.set a.index.toNat none })
      ∧ (a.marker = 0 → a.exitSide.toNat ≤ 2 → a.boardSide.toNat ≤ 2 →
        ∃ t x, exec (.writeStagedStation (.fields a)) s = .next t ∧ answered t .ok 0x11 []
          ∧ keptBut [.staged, .result] s t
          ∧ t.geo.staged = { s.geo.staged with stations := s.geo.staged.stations.set a.index.toNat (some x) }
          ∧ x.berth = a.berth.toNat ∧ sideCode x.exitSide = a.exitSide.toNat
          ∧ sideCode x.boardSide = a.boardSide.toNat ∧ x.alight = a.alight.toNat ∧ x.board = a.board.toNat))
  ∧ (∀ (a : StationArgs) (s : State),
      (3 < a.index.toNat ∨ 1 < a.marker.toNat ∨ (a.marker = 0 ∧ (2 < a.exitSide.toNat ∨ 2 < a.boardSide.toNat))) →
      ∃ t, exec (.writeStagedStation (.fields a)) s = .next t ∧ answered t .badParameter 0x11 [] ∧ keptBut [.result] s t)
  ∧ (∀ (a : SegmentArgs) (s : State), a.index.toNat ≤ 47 →
      (a.marker = 1 → ∃ t, exec (.writeStagedSegment (.fields a)) s = .next t ∧ answered t .ok 0x12 []
        ∧ keptBut [.staged, .result] s t
        ∧ t.geo.staged = { s.geo.staged with segments := s.geo.staged.segments.set a.index.toNat none })
      ∧ (a.marker = 0 → a.gradient.toNat ≤ 1023 → a.exposed.toNat ≤ 1 →
        ∃ t, exec (.writeStagedSegment (.fields a)) s = .next t ∧ answered t .ok 0x12 []
          ∧ keptBut [.staged, .result] s t
          ∧ t.geo.staged.header = s.geo.staged.header ∧ t.geo.staged.stations = s.geo.staged.stations
          ∧ t.geo.staged.segments = s.geo.staged.segments.set a.index.toNat
              (some ⟨a.start.toNat, a.gradient.toNat, a.limit.toNat, decide (a.exposed = 1)⟩)))
  ∧ ∀ (a : SegmentArgs) (s : State),
      (47 < a.index.toNat ∨ 1 < a.marker.toNat ∨ (a.marker = 0 ∧ (1023 < a.gradient.toNat ∨ 1 < a.exposed.toNat))) →
      ∃ t, exec (.writeStagedSegment (.fields a)) s = .next t ∧ answered t .badParameter 0x12 [] ∧ keptBut [.result] s t

/-- READ GEOMETRY returns the item named in the layout of its write, NOT FOUND for an absent item and BAD PARAMETER for an
index out of range (R3, R190). -/
def Obligations.ReadGeometryReturnsTheItem : Prop :=
  ∀ (a : ReadGeoArgs) (s : State) (g : Geometry),
    (a.copy = 0 ∧ g = s.geo.active) ∨ (a.copy = 1 ∧ g = s.geo.staged) →
    let answers (rc : ResultCode) (d : List Byte) : Prop :=
      exec (.readGeometry (.fields a)) s = .next (answeredOnly s rc 0x13 d)
    (a.kind = 0 →
      (g.header = none → answers .notFound [])
      ∧ ∀ h, g.header = some h → answers .ok (be4 h.trackLen ++ be1 h.count))
    ∧ (a.kind = 1 →
      (3 < a.index.toNat → answers .badParameter [])
      ∧ (a.index.toNat ≤ 3 → g.station a.index.toNat = none → answers .notFound [])
      ∧ (a.index.toNat ≤ 3 → ∀ x, g.station a.index.toNat = some x →
        answers .ok (be4 x.berth ++ be1 (sideCode x.exitSide) ++ be1 (sideCode x.boardSide) ++ be1 x.alight
          ++ be2 x.board)))
    ∧ (a.kind = 2 →
      (47 < a.index.toNat → answers .badParameter [])
      ∧ (a.index.toNat ≤ 47 → g.segments.getD a.index.toNat none = none → answers .notFound [])
      ∧ (a.index.toNat ≤ 47 → ∀ x, g.segments.getD a.index.toNat none = some x →
        answers .ok (be4 x.start ++ be2 x.gradient ++ be2 x.limit ++ flag1 x.exposed)))

/-- COMMIT GEOMETRY: WRONG STATE outside PARKED with inspection mode; BAD GEOMETRY with the number of the first check that
fails; otherwise the ACTIVE copy is replaced, the stations not in use being emptied, the position becomes UNREFERENCED
with pA clamped, LINE restrictions are re-spanned to the new L without a record in the ended list, and the WIND and FROST
slots follow W1 and FROST (R5, R6, R7, R46, R58). -/
def Obligations.CommitGeometryReplacesTheActiveCopy : Prop :=
  ∀ s : State,
    (s.haul.line ≠ .parked ∨ s.geo.inspection = false →
      ∃ t, exec (.commitGeometry (.fields {})) s = .next t ∧ answered t .wrongState 0x14 [])
    ∧ (s.haul.line = .parked → s.geo.inspection = true →
      let d := s.datumHalf
      let g := s.geo.staged
      let checks := [checkHeader g, checkSegments g, checkTerminals g, checkIntermediates g, checkSpacing d g,
        checkExposed g, checkRanges g]
      (∀ k : Fin 7, checks[k]? = some false → (∀ j : Fin 7, j < k → checks[j]? = some true) →
        ∃ t, exec (.commitGeometry (.fields {})) s = .next t ∧ answered t .badGeometry 0x14 [BitVec.ofNat 8 (k + 1)])
      ∧ ((∀ b ∈ checks, b = true) → s.tsr.table.length = 32 →
        ∃ t, exec (.commitGeometry (.fields {})) s = .next t ∧ answered t .ok 0x14 []
          ∧ keptBut [.active, .position, .restrictions, .boarding, .result] s t
          ∧ t.geo.active.header = g.header ∧ t.geo.active.segments = g.segments
          ∧ (∀ k < 4, t.geo.active.station k = if g.inUse.contains k then g.station k else none)
          ∧ t.geo.referenced = false ∧ t.geo.pA = min s.geo.pA ((g.len + 5000) * 1000)
          ∧ t.geo.travelUp = s.geo.travelUp
          ∧ (∀ n, 6 ≤ n → n < 32 → t.entry n = (s.entry n).bind fun r =>
              if r.spanEnd ≤ g.len then some r
              else if r.spanStart < g.len then some { r with spanEnd := g.len } else none)
          ∧ (∀ n < 5, (t.entry n).map (fun r => (r.spanStart, r.spanEnd, r.limit))
              = if s.mon.w1.raised then t.geo.active.exposedRuns[n]?.map (fun x => (x.1, x.2, max (s.par 0x30) s.creep))
                else none)
          ∧ ((t.entry 5).map fun r => (r.spanStart, r.spanEnd, r.limit))
              = if s.mon.frost.raised then some (0, g.len, max (s.par 0x31) s.creep) else none))

/-- ENTER INSPECTION and LEAVE INSPECTION change the flag in PARKED alone, raise LINE STATE at each accepted change and
queue a broadcast (R17, R156). -/
def Obligations.InspectionModeChangesInParked : Prop :=
  ∀ s : State,
    (s.haul.line = .parked → s.geo.inspection = false →
      ∃ t, exec (.enterInspection (.fields {})) s = .next t ∧ answered t .ok 0x20 [] ∧ t.geo.inspection = true
        ∧ t.lnk.attention = s.lnk.attention ||| attentionMask .lineState ∧ t.adm.broadcastPending = true
        ∧ keptBut [.inspection, .boarding, .attention, .result] s t ∧ boardingInv t)
    ∧ (s.haul.line ≠ .parked ∨ s.geo.inspection = true →
      ∃ t, exec (.enterInspection (.fields {})) s = .next t ∧ answered t .wrongState 0x20 [])
    ∧ (s.haul.line = .parked → s.geo.inspection = true →
      ∃ t, exec (.leaveInspection (.fields {})) s = .next t ∧ answered t .ok 0x21 [] ∧ t.geo.inspection = false
        ∧ t.lnk.attention = s.lnk.attention ||| attentionMask .lineState ∧ t.adm.broadcastPending = true
        ∧ keptBut [.inspection, .boarding, .attention, .result] s t ∧ boardingInv t)
    ∧ (s.haul.line = .parked → s.geo.inspection = false →
      ∃ t, exec (.leaveInspection (.fields {})) s = .next t ∧ answered t .ok 0x21 [] ∧ keptBut [.result] s t)
    ∧ (s.haul.line ≠ .parked →
      ∃ t, exec (.leaveInspection (.fields {})) s = .next t ∧ answered t .wrongState 0x21 [])

/-- HOME: the checks in order, the first that fails giving its result and changing nothing; with all passed pA is exactly 0
or exactly L, the position is REFERENCED, and the travel direction, the datum levels and the attention set are as they
were (R16). -/
def Obligations.HomeFixesThePositionAtATerminal : Prop :=
  ∀ (x : Byte) (s : State),
    let answers (t : State) (rc : ResultCode) (d : List Byte) : Prop :=
      exec (.home (.fields x)) s = .next t ∧ answered t rc 0x22 d
    let datums := s.geo.datum.getD 0 false = true ∧ s.geo.datum.getD 3 false = true
    (x ≠ 0 → x ≠ 3 → ∃ t, answers t .badParameter [] ∧ keptBut [.result] s t)
    ∧ (x = 0 ∨ x = 3 →
      (s.haul.line ≠ .parked ∨ s.geo.active.header = none → ∃ t, answers t .wrongState [] ∧ keptBut [.result] s t)
      ∧ (s.haul.line = .parked → s.geo.active.header.isSome →
        (s.spd.restSince = none → ∃ t, answers t .refused [0x01] ∧ keptBut [.result] s t)
        ∧ (s.spd.restSince.isSome → ¬datums → ∃ t, answers t .refused [0x02] ∧ keptBut [.result] s t)
        ∧ (s.spd.restSince.isSome → datums →
          ∃ t, answers t .ok [] ∧ keptBut [.position, .result] s t ∧ t.geo.referenced = true
            ∧ t.geo.travelUp = s.geo.travelUp ∧ t.geo.pA = if x = 0 then 0 else s.len * 1000)))

/-! ### Leaving and entering PARKED, departure, stops -/

/-- UNPARK: the checks of R66 in order; with all passed the line enters DWELL at car A's station with two new stop
records, or HALTED with cause OFF BERTH, the speeds at 0 and the load figures kept (R66, R102, R116, R120 to R122). -/
def Obligations.UnparkEntersDwellOrHalted : Prop :=
  ∀ s : State,
    (∀ rc d, refusedBy (unparkChecks s) = some (rc, d) →
      ∃ t, exec (.unpark (.fields {})) s = .next t ∧ answered t rc 0x23 d ∧ keptBut [.result] s t)
    ∧ (refusedBy (unparkChecks s) = none →
      ∃ t, exec (.unpark (.fields {})) s = .next t ∧ answered t .ok 0x23 [] ∧ boardingInv t
        ∧ (∀ k, s.current = some k → enteredDwell k s t)
        ∧ (s.current = none → enteredHalted .offBerth s t
            ∧ t.haul.loadA = s.haul.loadA ∧ t.haul.loadB = s.haul.loadB))

/-- PARK and STOP RUN. PARK: the checks of R67 in order; with all passed the line enters PARKED, the run record and the
stop records go, every open claim lapses with its record absent and leaves its entitlement record, and the load figures
stay. STOP RUN ends a run in HALTED with cause STOP COMMAND, changes nothing in HALTED, and is WRONG STATE elsewhere
(R67, R76, R102, R166, R170). -/
def Obligations.ParkAndStopRunEndTheService : Prop :=
  ∀ s : State,
    (∀ rc d, refusedBy (parkChecks s) = some (rc, d) →
      ∃ t, exec (.park (.fields {})) s = .next t ∧ answered t rc 0x24 d ∧ keptBut [.result] s t)
    ∧ (refusedBy (parkChecks s) = none → admissionInv s →
      ∃ t, exec (.park (.fields {})) s = .next t ∧ answered t .ok 0x24 [] ∧ boardingInv t
        ∧ t.haul.line = .parked ∧ t.haul.haltCause = .noCause ∧ t.haul.run = none ∧ t.haul.vPerm = 0
        ∧ t.haul.vSup = 0 ∧ t.haul.vDem = 0 ∧ t.haul.torqueDue = none ∧ t.haul.driveEnable = false
        ∧ t.osb.safetyReleased = false ∧ t.osb.serviceReleased = false
        ∧ t.record .a = none ∧ t.record .b = none ∧ t.adm.claims = []
        ∧ t.haul.loadA = s.haul.loadA ∧ t.haul.loadB = s.haul.loadB
        ∧ (∀ k, entGet t.ent.table k = (entGet s.ent.table k).map fun r => { r with claim := none })
        ∧ (∀ c ∈ s.adm.claims, (t.gate c.gate).bind (·.memory)
            = some ⟨c.id, c.media, c.persons, ((s.gate c.gate).bind (·.station)).getD 0, none⟩)
        ∧ hasAttention t .lineState = true)
    ∧ (s.running = true →
      ∃ t, exec (.stopRun (.fields {})) s = .next t ∧ answered t .ok 0x31 [] ∧ boardingInv t
        ∧ enteredHalted .stopCommand s t)
    ∧ (s.haul.line = .halted →
      ∃ t, exec (.stopRun (.fields {})) s = .next t ∧ answered t .ok 0x31 [] ∧ keptBut [.result] s t)
    ∧ (s.running = false → s.haul.line ≠ .halted →
      ∃ t, exec (.stopRun (.fields {})) s = .next t ∧ answered t .wrongState 0x31 [] ∧ keptBut [.result] s t)

/-- START RUN and RESUME: the checks of R69, or of R77, in order; with all passed a run record is fixed from the present
position and the line enters STARTING, every stop record staying as it was (R64, R69, R70, R72, R73, R87). RESUME replaces
the run record, keeps the target and the run speed, and starts from HALTED (R65, R77). The rollback test made at this entry
finds no measured speed at rest, so the condition is absent (R29), and the v_abs of parameter 0x74 takes effect with the
publication of v_sup (R110). -/
def Obligations.StartRunAndResumeEnterStarting : Prop :=
  ∀ (a : RunArgs) (s : State),
    (∀ rc d, refusedBy (startRunChecks a s) = some (rc, d) →
      ∃ t, exec (.startRun (.fields a)) s = .next t ∧ answered t rc 0x30 d ∧ keptBut [.result] s t)
    ∧ (refusedBy (startRunChecks a s) = none → speedInv s →
      ∃ t r, exec (.startRun (.fields a)) s = .next t ∧ answered t .ok 0x30 [] ∧ boardingInv t
        ∧ enteredStarting s t r ∧ r.target = a.target.toNat ∧ r.speed = a.speed.toNat
        ∧ r.origin = if s.haul.line = .dwell then .dwell else .halted)
    ∧ (∀ rc d, refusedBy (resumeChecks s) = some (rc, d) →
      ∃ t, exec (.resume (.fields {})) s = .next t ∧ answered t rc 0x32 d ∧ keptBut [.result] s t)
    ∧ (∀ q, s.haul.run = some q → refusedBy (resumeChecks s) = none → speedInv s →
      ∃ t r, exec (.resume (.fields {})) s = .next t ∧ answered t .ok 0x32 [] ∧ boardingInv t
        ∧ enteredStarting s t r ∧ r.target = q.target ∧ r.speed = q.speed ∧ r.origin = .halted)

/-! ### Trips -/

/-- EMERGENCY STOP: it returns OK in every line state and hands COMMANDED to OSB, which ignores it in PARKED, adds it to
the further causes in TRIPPED unless it is already the first cause or a member, and enters TRIPPED in every other state
(R98, R100, R101, R104, R105, R130). -/
def Obligations.EmergencyStopHandsCommanded : Prop :=
  ∀ s : State, ∃ t, exec (.emergencyStop (.fields {})) s = .next t ∧ answered t .ok 0x33 []
    ∧ (s.haul.line = .parked → keptBut [.boarding, .result] s t)
    ∧ (s.haul.line = .tripped → tookFurther .commanded s t)
    ∧ (s.haul.line ≠ .parked → s.haul.line ≠ .tripped →
        enteredTripped .commanded s t ∧ keptBut (tripParts ++ [.boarding, .result]) s t)

/-- The two hardwired inputs: a taken level that stays changes nothing, a change to inactive changes the level alone, and
a change to active hands E-STOP or DRIVE FAULT to OSB, which records E-STOP in PARKED and ignores DRIVE FAULT there (R97,
R100, R101). -/
def Obligations.HardwiredInputsHandTheirCauses : Prop :=
  ∀ s : State,
    (exec (.emergencyStopInput s.osb.estop) s = .next s) ∧ (exec (.driveFaultInput s.osb.driveFault) s = .next s)
    ∧ (exec (.emergencyStopInput false) s = .next { s with osb := { s.osb with estop := false } })
    ∧ (exec (.driveFaultInput false) s = .next { s with osb := { s.osb with driveFault := false } })
    ∧ (s.osb.estop = false → ∃ t, exec (.emergencyStopInput true) s = .next t ∧ t.osb.estop = true
      ∧ t.osb.driveFault = s.osb.driveFault
      ∧ (s.haul.line = .parked → keptBut [.inputs, .latch, .attention, .boarding] s t
          ∧ t.osb.first = s.osb.first ∧ hasAttention t .trip = true
          ∧ ∀ d : TripCause, causeIn t.osb.further d = (causeIn s.osb.further d || decide (d = .estop)))
      ∧ (s.haul.line = .tripped → tookFurther .estop { s with osb := { s.osb with estop := true } } t)
      ∧ (s.haul.line ≠ .parked → s.haul.line ≠ .tripped → enteredTripped .estop s t))
    ∧ (s.osb.driveFault = false → ∃ t, exec (.driveFaultInput true) s = .next t ∧ t.osb.driveFault = true
      ∧ t.osb.estop = s.osb.estop
      ∧ (s.haul.line = .parked → keptBut [.inputs, .boarding] s t)
      ∧ (s.haul.line = .tripped → tookFurther .driveFault { s with osb := { s.osb with driveFault := true } } t)
      ∧ (s.haul.line ≠ .parked → s.haul.line ≠ .tripped → enteredTripped .driveFault s t))

/-- RESET TRIP: in TRIPPED the five checks of R106 in order, and with all passed the latch, the hold and the wait are
cleared and the line leaves for DWELL or for HALTED with cause OFF BERTH. The stop records that name car A's station stay as
they are, but for the suspended flag, the alarm and, of a record in ARRIVED, the test that the entry to DWELL makes of the
berthed conditions, which are not tested in inspection mode (R120). In PARKED it empties the further causes unless the
emergency-stop input is active; elsewhere WRONG STATE (R105 to R108). -/
def Obligations.ResetTripClearsTheLatch : Prop :=
  ∀ s : State,
    let ends (t : State) (rc : ResultCode) (d : List Byte) : Prop :=
      exec (.resetTrip (.fields {})) s = .next t ∧ answered t rc 0x34 d
    (s.haul.line = .tripped →
      (∀ rc d, refusedBy (resetChecks s) = some (rc, d) → ∃ t, ends t rc d ∧ keptBut [.result] s t)
      ∧ (refusedBy (resetChecks s) = none → ∃ t, ends t .ok [] ∧ boardingInv t
        ∧ t.osb.first = none ∧ t.osb.fromState = none ∧ t.osb.further = 0 ∧ t.osb.hold = true
        ∧ t.osb.resetDue = none ∧ t.osb.resetElapsed = false
        ∧ (s.current = none → enteredHalted .offBerth s t)
        ∧ ∀ k, s.current = some k →
          ((∀ r, s.record .a = some r → r.station ≠ k) → enteredDwell k s t)
          ∧ ((∃ r ∈ s.record .a, r.station = k) →
            standsInDwell s t ∧ t.haul.haltCause = .noCause ∧ t.adm.claims = s.adm.claims
            ∧ (∀ c, (s.record c).isSome → (t.car c).pendingAlarm = false)
            ∧ ∀ c r, s.record c = some r →
              let q : StopRecord := { r with suspended := false, alarm := r.alarm || (s.car c).pendingAlarm }
              let tested := arrivedRecord s c (s.berthed c q.station && s.atRest && (s.car c).live) q
              t.record c = some (if q.phase = .arrived ∧ s.geo.inspection = false then tested else q)
              ∧ (q.phase = .arrived → s.geo.inspection = false → tested.phase ≠ .arrived →
                  hasAttention t .stopPhase = true))))
    ∧ (s.haul.line = .parked →
      (s.osb.estop = true → ∃ t, ends t .refused [0x03] ∧ keptBut [.result] s t)
      ∧ (s.osb.estop = false → ∃ t, ends t .ok [] ∧ keptBut [.latch, .result] s t ∧ t.osb.further = 0
        ∧ t.osb.first = s.osb.first ∧ t.osb.fromState = s.osb.fromState))
    ∧ (s.haul.line ≠ .tripped → s.haul.line ≠ .parked → ∃ t, ends t .wrongState [] ∧ keptBut [.result] s t)

/-- TRIP_RESET_TIME sets the elapsed flag at the timer's deadline (R105); SLIP_TIMER_EXPIRY makes the condition present and
hands SLIP or DISAGREE (R28, R100, R101, R104, R130); and an expiry event of a timer that is stopped changes nothing at all.
The time at which an expiry row is taken, and the row of a stopped timer, are the model's own conventions (log 3). -/
def Obligations.SlipAndResetTimersExpireAndStoppedOnesDoNot : Prop :=
  (∀ (s : State) (due : Nat), s.osb.resetDue = some due →
    exec .tripResetTime s
      = .next { s with now := max s.now due, osb := { s.osb with resetDue := none, resetElapsed := true } })
  ∧ (∀ (s : State) (due : Nat), s.spd.slipDue = some due →
    let cause : TripCause := if s.spd.slipPositive then .slip else .disagree
    let u : State := { s with
      now := max s.now due
      spd := { s.spd with slipDue := none, slip := if s.spd.slipPositive then .slip else .disagree } }
    ∃ t, exec .slipTimerExpiry s = .next t ∧ t.now = u.now ∧ t.spd.slip = u.spd.slip ∧ t.spd.slipDue = none
      ∧ (s.haul.line = .parked → keptBut [.boarding] u t)
      ∧ (s.haul.line = .tripped → tookFurther cause u t)
      ∧ (s.haul.line ≠ .parked → s.haul.line ≠ .tripped → enteredTripped cause u t))
  ∧ ∀ s : State,
    (s.osb.resetDue = none → exec .tripResetTime s = .next s)
    ∧ (s.spd.rope.standDue = none → exec (.standstillTimeout .rope) s = .next s)
    ∧ (s.spd.drive.standDue = none → exec (.standstillTimeout .drive) s = .next s)
    ∧ (s.spd.restDue = none → exec .restConfirm s = .next s)
    ∧ (s.spd.slipDue = none → exec .slipTimerExpiry s = .next s)
    ∧ (s.tsr.minuteDue = none → exec .minuteBoundary s = .next s)
    ∧ (s.haul.torqueDue = none → exec .torqueReadyTimeout s = .next s)
    ∧ (∀ c, (s.car c).linkDue = none → exec (.carLinkTimeout c) s = .next s)
    ∧ (∀ c, s.record c = none → exec (.doorFault c) s = .next s ∧ exec (.alightTimeExpiry c) s = .next s
        ∧ exec (.boardTimeExpiry c) s = .next s ∧ exec (.reopenTimeExpiry c) s = .next s)
    ∧ (s.adm.pollDue = none → exec .pollSlot s = .next s)
    ∧ (s.adm.windowDue = none → exec .responseWindowExpiry s = .next s)
    ∧ (∀ id, s.claimById id = none → exec (.claimLapse id) s = .next s)

/-! ### Stops -/

/-- ADVANCE: BAD PARAMETER for a selector above 2, WRONG STATE without stop records; otherwise each selected record is
acted on by its phase, the other stays as it is, and the result carries both phases (R119, R121 to R123), as one byte each,
the layout being the model's reading of R189 (log 15). -/
def Obligations.AdvanceActsOnTheSelectedRecords : Prop :=
  ∀ (x : Byte) (s : State),
    let ends (t : State) (rc : ResultCode) (d : List Byte) : Prop :=
      exec (.advance (.fields x)) s = .next t ∧ answered t rc 0x40 d
    (2 < x.toNat → ∃ t, ends t .badParameter [] ∧ keptBut [.result] s t)
    ∧ (x.toNat ≤ 2 → s.record .a = none → s.record .b = none → ∃ t, ends t .wrongState [] ∧ keptBut [.result] s t)
    ∧ (x.toNat ≤ 2 → ∀ r q, s.record .a = some r → s.record .b = some q →
      let after (selected : Bool) (y : StopRecord) : StopRecord :=
        if selected then advancedRecord s.now (sec (s.par 0x82)) y else y
      let r1 := after (decide (x ≠ 1)) r
      let q1 := after (decide (x ≠ 0)) q
      ∃ t, ends t .ok [BitVec.ofNat 8 (phaseCode r1.phase), BitVec.ofNat 8 (phaseCode q1.phase)]
        ∧ keptBut [.records, .attention, .boarding, .result] s t ∧ boardingInv t
        ∧ t.record .a = some r1 ∧ t.record .b = some q1
        ∧ t.lnk.attention = s.lnk.attention |||
            (if r1.phase ≠ r.phase ∨ q1.phase ≠ q.phase then attentionMask .stopPhase else 0))

/-- REOPEN DOORS, ACK ALARM, EVACUATE and END EVACUATION act on the one car, and the one side, that they name (R125, R126,
R129, R131, R132). -/
def Obligations.DoorAndAlarmCommandsActOnOneCar : Prop :=
  ∀ s : State,
    (∀ (a : ReopenArgs) (c : Car), carOf a.car = some c → 1 ≤ a.time.toNat → a.time.toNat ≤ 60 →
      (∀ r, s.record c = some r → r.phase = .closing → s.geo.inspection = false →
        ∃ t, exec (.reopenDoors (.fields a)) s = .next t ∧ answered t .ok 0x41 [] ∧ keptBut [.records, .result] s t
          ∧ t.record (otherCar c) = s.record (otherCar c)
          ∧ t.record c = some { r with
              doorFault := false, closeDue := none, close := none, reopening := true
              phaseDue := some (s.now + sec a.time.toNat) })
      ∧ ((∀ r, s.record c = some r → r.phase ≠ .closing) ∨ s.geo.inspection = true →
        ∃ t, exec (.reopenDoors (.fields a)) s = .next t ∧ answered t .wrongState 0x41 []))
    ∧ (∀ a : ReopenArgs, 1 < a.car.toNat ∨ a.time.toNat < 1 ∨ 60 < a.time.toNat →
      ∃ t, exec (.reopenDoors (.fields a)) s = .next t ∧ answered t .badParameter 0x41 [])
    ∧ (∀ x : Byte, 1 < x.toNat → ∃ t, exec (.ackAlarm (.fields x)) s = .next t ∧ answered t .badParameter 0x42 [])
    ∧ (∀ (x : Byte) (c : Car), carOf x = some c →
      ∃ t, exec (.ackAlarm (.fields x)) s = .next t ∧ answered t .ok 0x42 [] ∧ keptBut [.records, .alarms, .result] s t
        ∧ (t.car c).pendingAlarm = false ∧ t.record c = (s.record c).map (fun r => { r with alarm := false })
        ∧ t.car (otherCar c) = s.car (otherCar c))
    ∧ (∀ (a : CarSideArgs) (c : Car), (a.car.toNat ≤ 1 → carOf a.car = some c) →
      (∀ rc d, refusedBy (evacuateChecks a c s) = some (rc, d) →
        ∃ t, exec (.evacuate (.fields a)) s = .next t ∧ answered t rc 0x43 d ∧ keptBut [.result] s t)
      ∧ (∀ d, sideOf a.side = some d → refusedBy (evacuateChecks a c s) = none →
        ∃ t, exec (.evacuate (.fields a)) s = .next t ∧ answered t .ok 0x43 [] ∧ keptBut [.evac, .result] s t
          ∧ (t.car c).evac d = true ∧ t.released c d = true
          ∧ ∀ e f, (e ≠ c ∨ f ≠ d) → (t.car e).evac f = (s.car e).evac f))
    ∧ (∀ (a : CarSideArgs) (c : Car) (d : Side), carOf a.car = some c → sideOf a.side = some d →
      ∃ t, exec (.endEvacuation (.fields a)) s = .next t ∧ answered t .ok 0x44 [] ∧ keptBut [.evac, .result] s t
        ∧ (t.car c).evac d = false ∧ ∀ e f, (e ≠ c ∨ f ≠ d) → (t.car e).evac f = (s.car e).evac f)
    ∧ ∀ a : CarSideArgs, 1 < a.car.toNat ∨ a.side.toNat < 1 ∨ 2 < a.side.toNat →
      ∃ t, exec (.endEvacuation (.fields a)) s = .next t ∧ answered t .badParameter 0x44 []

/-! ### Restrictions -/

/-- ADD RESTRICTION: the checks of R40 in order; with all passed the restriction goes into the lowest-numbered FREE LINE
slot, its span clamped, its limit raised to the creep speed, IN FORCE unless its from-time is still to come, and every
other entry stays as it was (R40, R41). That a minute is checked only where its presence bit is set is log 32. -/
def Obligations.AddRestrictionTakesTheLowestFreeSlot : Prop :=
  ∀ (a : AddRestrictionArgs) (s : State), s.tsr.table.length = 32 →
    (∀ rc d, refusedBy (addRestrictionChecks a s) = some (rc, d) →
      ∃ t, exec (.addRestriction (.fields a)) s = .next t ∧ answered t rc 0x50 d ∧ keptBut [.result] s t)
    ∧ (refusedBy (addRestrictionChecks a s) = none →
      ∃ t n r, exec (.addRestriction (.fields a)) s = .next t ∧ answered t .ok 0x50 [BitVec.ofNat 8 n]
        ∧ keptBut [.restrictions, .result] s t
        ∧ 6 ≤ n ∧ n < 32 ∧ s.entry n = none ∧ (∀ m, 6 ≤ m → m < n → (s.entry m).isSome)
        ∧ t.entry n = some r ∧ (∀ m, m ≠ n → t.entry m = s.entry m)
        ∧ r.spanStart = min a.spanStart.toNat s.len ∧ r.spanEnd = min a.spanEnd.toNat s.len
        ∧ r.limit = max a.limit.toNat s.creep ∧ restrictionDirCode r.dir = a.direction.toNat
        ∧ r.fromTime = (if a.presence.getLsbD 0 then some ⟨a.fromDay.toNat, a.fromMinute.toNat⟩ else none)
        ∧ r.untilTime = (if a.presence.getLsbD 1 then some ⟨a.untilDay.toNat, a.untilMinute.toNat⟩ else none)
        ∧ r.label = (if a.presence.getLsbD 2 then some a.label.toNat else none)
        ∧ r.inForce = decide (∀ f ∈ r.fromTime, f.count ≤ s.time.count))

/-- AMEND, RETIRE and READ RESTRICTION. AMEND: the checks of R42 in order, then a new limit raised to the creep speed and
the until-time by its action, the result being the entry as amended. RETIRE frees a LINE entry in use. READ returns an
entry, or the ended list, which it empties (R42 to R45, section 11.4). That the minute is checked only with SET is log 32,
and that the result of AMEND is the transfer record is log 15. -/
def Obligations.RestrictionCommandsActOnOneEntry : Prop :=
  ∀ s : State, s.tsr.table.length = 32 →
    (∀ (a : AmendRestrictionArgs) rc d, refusedBy (amendRestrictionChecks a s) = some (rc, d) →
      ∃ t, exec (.amendRestriction (.fields a)) s = .next t ∧ answered t rc 0x51 d ∧ keptBut [.result] s t)
    ∧ (∀ (a : AmendRestrictionArgs) r, refusedBy (amendRestrictionChecks a s) = none →
      s.entry a.entry.toNat = some r →
      let q : Restriction := { r with
        limit := max a.limit.toNat s.creep
        untilTime := if a.action = 0 then r.untilTime else if a.action = 1 then none
          else some ⟨a.untilDay.toNat, a.untilMinute.toNat⟩ }
      ∃ t, exec (.amendRestriction (.fields a)) s = .next t
        ∧ answered t .ok 0x51 (restrictionBytes a.entry.toNat (some q)) ∧ keptBut [.restrictions, .result] s t
        ∧ t.entry a.entry.toNat = some q ∧ ∀ m, m ≠ a.entry.toNat → t.entry m = s.entry m)
    ∧ (∀ x : Byte,
      (31 < x.toNat → ∃ t, exec (.retireRestriction (.fields x)) s = .next t ∧ answered t .badParameter 0x52 [])
      ∧ (x.toNat < 6 → ∃ t, exec (.retireRestriction (.fields x)) s = .next t ∧ answered t .wrongOrigin 0x52 [])
      ∧ (6 ≤ x.toNat → x.toNat ≤ 31 → s.entry x.toNat = none →
        ∃ t, exec (.retireRestriction (.fields x)) s = .next t ∧ answered t .notFound 0x52 [])
      ∧ (6 ≤ x.toNat → (s.entry x.toNat).isSome →
        ∃ t, exec (.retireRestriction (.fields x)) s = .next t ∧ answered t .ok 0x52 []
          ∧ keptBut [.restrictions, .result] s t ∧ t.entry x.toNat = none
          ∧ ∀ m, m ≠ x.toNat → t.entry m = s.entry m)
      ∧ (x.toNat ≤ 31 → ∃ t, exec (.readRestriction (.fields x)) s = .next t
        ∧ answered t .ok 0x53 (restrictionBytes x.toNat (s.entry x.toNat)) ∧ keptBut [.result] s t)
      ∧ (32 ≤ x.toNat → x ≠ 255 →
        ∃ t, exec (.readRestriction (.fields x)) s = .next t ∧ answered t .badParameter 0x53 []))
    ∧ ∃ t, exec (.readRestriction (.fields 255)) s = .next t
        ∧ answered t .ok 0x53 (flag1 s.tsr.overflow ++ be1 s.tsr.ended.length ++ (s.tsr.ended.flatMap fun e =>
            be1 e.entry ++ flag1 e.label.isSome ++ be2 (e.label.getD 0) ++ be2 e.time.day ++ be2 e.time.minute))
        ∧ keptBut [.ended, .result] s t ∧ t.tsr.ended = [] ∧ t.tsr.overflow = false

/-! ### Entitlements -/

/-- ADD ENTITLEMENT: BAD PARAMETER for a record that fails R141; DUPLICATE where its home bucket holds the number; the
lowest-numbered empty slot of the bucket; in a full bucket, with the clock set, the slot of the reclaim candidate with the
earliest valid-until day, the lowest slot among equal days; TABLE FULL otherwise. No other slot changes (R136, R137, R140
to R142, R191). That bits 7 and 6 of byte 12 are ignored is log 16. -/
def Obligations.AddEntitlementPlacesOrReclaims : Prop :=
  ∀ (x : EntTransfer) (s : State), entWf s.ent.table = true →
    let b := homeBucket x.media
    let inBucket (k : Nat) : Prop := 4 * b ≤ k ∧ k < 4 * b + 4
    let at_ (k : Nat) : Option EntRecord := entGet s.ent.table k
    let candidate (k d : Nat) : Prop :=
      inBucket k ∧ ∃ r ∈ at_ k, r.validUntil = some d ∧ d < s.tsr.day ∧ r.claim = none
    let placed (k : Nat) (gone : Media) : Prop :=
      ∃ t, exec (.addEntitlement (.fields x)) s = .next t ∧ answered t .ok 0x60 (be2 k ++ be5 gone)
        ∧ keptBut [.ent, .result] s t
        ∧ entGet t.ent.table k = some
            { media := x.media, kind := entKindOf x.kind, blocked := x.blocked, group := x.group.toNat
              rides := if x.kind = 1 then some (x.fieldA.toNat / 256) else none
              validFrom := if x.kind = 2 then some x.fieldA.toNat else none
              validUntil := if x.presence.getLsbD 1 then some x.untilDay.toNat else none
              stations := if x.presence.getLsbD 2 then some x.stations else none
              daily := if x.presence.getLsbD 3 then some ⟨x.cap.toNat, 0, none⟩ else none
              stamp := none, claim := none }
        ∧ ∀ m, m ≠ k → entGet t.ent.table m = at_ m
    let refused (rc : ResultCode) : Prop :=
      ∃ t, exec (.addEntitlement (.fields x)) s = .next t ∧ answered t rc 0x60 [] ∧ keptBut [.result] s t
    (transferFails x → refused .badParameter)
    ∧ (¬transferFails x →
      ((∃ k, inBucket k ∧ ∃ r ∈ at_ k, r.media = x.media) → refused .duplicate)
      ∧ ((∀ k r, inBucket k → at_ k = some r → r.media ≠ x.media) →
        (∀ k, inBucket k → at_ k = none → (∀ m, inBucket m → m < k → (at_ m).isSome) → placed k 0)
        ∧ ((∀ k, inBucket k → (at_ k).isSome) →
          (s.tsr.clockSet = true → ∀ k d r, candidate k d → at_ k = some r →
            (∀ m e, candidate m e → d < e ∨ (d = e ∧ k ≤ m)) → placed k r.media)
          ∧ ((s.tsr.clockSet = false ∨ ∀ k d, ¬candidate k d) → refused .tableFull))))

/-- AMEND ENTITLEMENT: the checks of R143 in order; with all passed each SET replaces or adds its field, each REMOVE makes
it absent, a SET of the daily cap leaves a count that stands, and the result is the record as amended (R143, R190). Which
values are checked under which action is log 32, that bits 15 to 10 of the actions are ignored log 16, and the layout of the
result log 15. -/
def Obligations.AmendEntitlementChangesTheFieldsNamed : Prop :=
  ∀ (a : AmendEntArgs) (s : State), entWf s.ent.table = true →
    (∀ rc d, refusedBy (amendEntitlementChecks a s) = some (rc, d) →
      ∃ t, exec (.amendEntitlement (.fields a)) s = .next t ∧ answered t rc 0x61 d ∧ keptBut [.result] s t)
    ∧ ∀ k r, entFind s.ent.table a.media = some (k, r) → refusedBy (amendEntitlementChecks a s) = none →
      let q : EntRecord := { r with
        rides := if actionBits a 0 = 1 then some a.rides.toNat else r.rides
        group := if actionBits a 1 = 1 then a.group.toNat else r.group
        validUntil := if actionBits a 2 = 1 then some a.untilDay.toNat
          else if actionBits a 2 = 2 then none else r.validUntil
        stations := if actionBits a 3 = 1 then some (a.stations.setWidth 4)
          else if actionBits a 3 = 2 then none else r.stations
        daily := if actionBits a 4 = 1 then
            some ⟨a.cap.toNat, (r.daily.map (·.today)).getD 0, r.daily.bind (·.rideDay)⟩
          else if actionBits a 4 = 2 then none else r.daily }
      ∃ t, exec (.amendEntitlement (.fields a)) s = .next t ∧ answered t .ok 0x61 (entRecordBytes q)
        ∧ keptBut [.ent, .result] s t
        ∧ entGet t.ent.table k = some q ∧ ∀ m, m ≠ k → entGet t.ent.table m = entGet s.ent.table m

/-- BLOCK, UNBLOCK and RETIRE ENTITLEMENT: BAD PARAMETER for 0, NOT FOUND for a number the table does not hold, IN USE for
a RETIRE of a record with a claim; otherwise the state is set, or the slot emptied, and no other slot changes (R140, R144,
R145). The result byte of BLOCK and UNBLOCK, 1 for BLOCKED and 0 for ACTIVE, is the model's reading of R189 (log 15). -/
def Obligations.BlockAndRetireActOnTheRecordFound : Prop :=
  ∀ (m : Media) (s : State), entWf s.ent.table = true →
    (m = 0 → ∀ c ∈ [(Instr.blockEntitlement (.fields m), (0x62 : Byte)), (.unblockEntitlement (.fields m), 0x63),
        (.retireEntitlement (.fields m), 0x64)],
      ∃ t, exec c.1 s = .next t ∧ answered t .badParameter c.2 [] ∧ keptBut [.result] s t)
    ∧ (m ≠ 0 → entFind s.ent.table m = none →
      ∀ c ∈ [(Instr.blockEntitlement (.fields m), (0x62 : Byte)), (.unblockEntitlement (.fields m), 0x63),
        (.retireEntitlement (.fields m), 0x64)],
      ∃ t, exec c.1 s = .next t ∧ answered t .notFound c.2 [] ∧ keptBut [.result] s t)
    ∧ ∀ k r, m ≠ 0 → entFind s.ent.table m = some (k, r) →
      (∃ t, exec (.blockEntitlement (.fields m)) s = .next t ∧ answered t .ok 0x62 (be1 1) ∧ keptBut [.ent, .result] s t
        ∧ ∀ n, entGet t.ent.table n = if n = k then some { r with blocked := true } else entGet s.ent.table n)
      ∧ (∃ t, exec (.unblockEntitlement (.fields m)) s = .next t ∧ answered t .ok 0x63 (be1 0)
        ∧ keptBut [.ent, .result] s t
        ∧ ∀ n, entGet t.ent.table n = if n = k then some { r with blocked := false } else entGet s.ent.table n)
      ∧ (r.claim.isSome →
        ∃ t, exec (.retireEntitlement (.fields m)) s = .next t ∧ answered t .inUse 0x64 [] ∧ keptBut [.result] s t)
      ∧ (r.claim = none →
        ∃ t, exec (.retireEntitlement (.fields m)) s = .next t ∧ answered t .ok 0x64 (be2 k)
          ∧ keptBut [.ent, .result] s t
          ∧ ∀ n, entGet t.ent.table n = if n = k then none else entGet s.ent.table n)

/-- LOOK UP returns the record of a number, or of a slot, with its slot, or NOT FOUND, or BAD PARAMETER for the number 0, a
slot above 4,095 or a form that does not fit its length. COUNT returns the figures of R147 over the table, the fullest
bucket being the lowest-numbered with the greatest fill. Neither changes anything (R146, R147, R190). The widths of the
figures of COUNT are read from R189 (log 15), and BAD PARAMETER for a form byte that does not fit its length is log 36. -/
def Obligations.LookUpAndCountReadTheTable : Prop :=
  ∀ s : State,
    (∀ (f : Byte) (m : Media),
      (f ≠ 0 ∨ m = 0 → ∃ t, exec (.lookUpEntitlement (.fields (.long f m))) s = .next t
        ∧ answered t .badParameter 0x65 [] ∧ keptBut [.result] s t)
      ∧ (m ≠ 0 → entFind s.ent.table m = none → ∃ t, exec (.lookUpEntitlement (.fields (.long 0 m))) s = .next t
        ∧ answered t .notFound 0x65 [] ∧ keptBut [.result] s t)
      ∧ (m ≠ 0 → ∀ k r, entFind s.ent.table m = some (k, r) →
        ∃ t, exec (.lookUpEntitlement (.fields (.long 0 m))) s = .next t
          ∧ answered t .ok 0x65 (be2 k ++ entRecordBytes r) ∧ keptBut [.result] s t))
    ∧ (∀ (f : Byte) (k : BitVec 16),
      (f ≠ 1 ∨ 4095 < k.toNat → ∃ t, exec (.lookUpEntitlement (.fields (.short f k))) s = .next t
        ∧ answered t .badParameter 0x65 [] ∧ keptBut [.result] s t)
      ∧ (k.toNat ≤ 4095 → entGet s.ent.table k.toNat = none →
        ∃ t, exec (.lookUpEntitlement (.fields (.short 1 k))) s = .next t ∧ answered t .notFound 0x65 []
          ∧ keptBut [.result] s t)
      ∧ (k.toNat ≤ 4095 → ∀ r, entGet s.ent.table k.toNat = some r →
        ∃ t, exec (.lookUpEntitlement (.fields (.short 1 k))) s = .next t
          ∧ answered t .ok 0x65 (be2 k.toNat ++ entRecordBytes r) ∧ keptBut [.result] s t))
    ∧ (entWf s.ent.table = true →
      let fill (b : Nat) : Nat := ((bucketSlots b).filter fun k => (entGet s.ent.table k).isSome).length
      ∃ t top low, exec (.count (.fields {})) s = .next t ∧ keptBut [.result] s t
        ∧ answered t .ok 0x66 (be2 s.ent.table.length ++ be2 (s.ent.table.filter (·.2.blocked)).length
            ++ be1 (s.ent.table.filter (·.2.claim.isSome)).length ++ be1 top ++ be2 low)
        ∧ fill low = top ∧ (∀ b, fill b ≤ top) ∧ ∀ b, b < low → fill b < top)

/-! ### Gate map, status, attention, soft reset -/

/-- SET GATE: the checks of R155 in order; with all passed the map entry takes the station and the flag, and a gate that
was enabled and is disabled goes OFFLINE with miss count 0 and no pending reply; no other gate changes (R155). -/
def Obligations.SetGateChangesOneEntry : Prop :=
  ∀ (a : GateArgs) (s : State), s.adm.gates.length = 16 →
    (∀ rc d, refusedBy (setGateChecks a s) = some (rc, d) →
      ∃ t, exec (.setGate (.fields a)) s = .next t ∧ answered t rc 0x70 d ∧ keptBut [.result] s t)
    ∧ (refusedBy (setGateChecks a s) = none → ∀ g, s.gate a.address.toNat = some g →
      let station := if a.station = 0xFF then none else some a.station.toNat
      ∃ t, exec (.setGate (.fields a)) s = .next t ∧ answered t .ok 0x70 [] ∧ keptBut [.gates, .result] s t
        ∧ (∀ m, m ≠ a.address.toNat → t.gate m = s.gate m)
        ∧ t.gate a.address.toNat = some
            (if g.enabled = true ∧ a.enable = 0 then
              { g with station := station, enabled := false, online := false, misses := 0, replyPending := false }
            else { g with station := station, enabled := decide (a.enable = 1) }))

/-- READ STOP RECORD, READ GATE STATUS and READ MONITOR return OK and change nothing but the result. Their layouts are the
model's reading of R189 (log 15): the lengths are fixed whatever exists, each group that may be absent has its presence
byte, the optional fields of a group have one presence byte before it, and an absent field is zero; times are rounded down
to ms (log 40), and a time since the last report that does not fit into its four bytes is free (log 42). A car above 1 or a
gate above 16 gives BAD PARAMETER (R61, R133, R172, R189). -/
def Obligations.StatusReadsChangeNothing : Prop :=
  ∀ s : State,
    (∀ (x : Byte) (c : Car), carOf x = some c →
      ∃ t d, exec (.readStopRecord (.fields x)) s = .next t ∧ answered t .ok 0x45 d ∧ keptBut [.result] s t
        ∧ d.length = 46 ∧ d[0]? = some (if (s.record c).isSome then 1 else 0)
        ∧ d[23]? = some (if (s.car c).live then 0 else 1) ∧ d[24]? = some (if (s.car c).report.isSome then 1 else 0)
        ∧ d[38]? = some (if s.released c .left then 1 else 0) ∧ d[40]? = some (if s.released c .right then 1 else 0)
        ∧ (∀ x, (s.car c).report = some x → (s.now - x.takenAt) / 1000 < 2 ^ 32 →
            (d.drop 33).take 4 = be4 ((s.now - x.takenAt) / 1000))
        ∧ (s.record c = none → (d.drop 1).take 22 = List.replicate 22 0)
        ∧ ∀ r, s.record c = some r →
            d[1]? = some (BitVec.ofNat 8 (bits [r.wOpen.isSome, r.phaseDue.isSome, r.closeDue.isSome]))
            ∧ d[3]? = some (BitVec.ofNat 8 r.station)
            ∧ d[4]? = some (BitVec.ofNat 8 (phaseCode r.phase)) ∧ (d.drop 5).take 2 = be2 (r.wOpen.getD 0)
            ∧ d[7]? = some (BitVec.ofNat 8 r.quota)
            ∧ d[8]? = some (BitVec.ofNat 8 r.boarded) ∧ d[9]? = some (BitVec.ofNat 8 r.held)
            ∧ (d.drop 14).take 4 = be4 ((r.phaseDue.map fun x => (x - s.now) / 1000).getD 0)
            ∧ (d.drop 18).take 4 = be4 ((r.closeDue.map fun x => (x - s.now) / 1000).getD 0))
    ∧ (∀ x : Byte, 1 < x.toNat →
      ∃ t, exec (.readStopRecord (.fields x)) s = .next t ∧ answered t .badParameter 0x45 [] ∧ keptBut [.result] s t)
    ∧ (∀ (x : Byte) (g : Gate), s.gate x.toNat = some g →
      ∃ t d, exec (.readGateStatus (.fields x)) s = .next t ∧ answered t .ok 0x71 d ∧ keptBut [.result] s t
        ∧ d.length = 37 ∧ d[0]? = some (BitVec.ofNat 8 (g.station.getD 0xFF))
        ∧ d[1]? = some (if g.enabled then 1 else 0) ∧ d[2]? = some (if g.online then 0 else 1)
        ∧ d[11]? = some (if g.memory.isSome then 1 else 0)
        ∧ (∀ m, g.memory = some m → d[12]? = some (if m.record.isSome then 1 else 0)
            ∧ d[13]? = some m.id ∧ d[21]? = some (if m.record = some .b then 1 else 0))
        ∧ d[22]? = some (if (∃ c ∈ s.adm.claims, c.gate = x.toNat) then 1 else 0))
    ∧ (∃ t, exec (.readGateStatus (.fields 0)) s = .next t ∧ keptBut [.result] s t
        ∧ answered t .ok 0x71 ((s.adm.boarding.flatMap fun b => be1 (boardingCode b)) ++ flag1 s.adm.broadcastPending
            ++ be1 s.adm.pollCount ++ [s.adm.lastClaimId] ++ be1 s.adm.claims.length
            ++ s.adm.claims.flatMap fun c => be1 c.gate ++ [c.id] ++ be1 c.persons))
    ∧ (∀ x : Byte, 16 < x.toNat → s.adm.gates.length = 16 →
      ∃ t, exec (.readGateStatus (.fields x)) s = .next t ∧ answered t .badParameter 0x71 [] ∧ keptBut [.result] s t)
    ∧ ∃ t d, exec (.readMonitor (.fields {})) s = .next t ∧ answered t .ok 0x81 d ∧ keptBut [.result] s t
        ∧ d.length = 53
        ∧ d.take 6 = be2 s.mon.wind.raw ++ sbe2 s.mon.wind.value ++ flag1 s.mon.wind.valid ++ flag1 s.mon.wind.fault
        ∧ d[24]? = some (if s.mon.w1.raised then 0 else 1) ∧ d[28]? = some (if s.mon.w2.raised then 0 else 1)
        ∧ d[44]? = some (if s.mon.slack.raised then 0 else 1)
        ∧ d[48]? = some (if s.mon.overtension.raised then 0 else 1)
        ∧ d[52]? = some (BitVec.ofNat 8 s.geo.active.exposedRuns.length)

/-- READ LINE STATUS returns 79 bytes gathered from every block, each at its offset of section 11.2.1, and changes nothing;
the attention set is not emptied (R30, R88, R109, R185). -/
def Obligations.LineStatusRecordFollowsItsLayout : Prop :=
  ∀ s : State,
    let channel (c : SpeedChannel) : List Byte :=
      be1 (captureCode c.capture + if c.forward then 0 else 128) ++ be2 c.speed ++ be4 (c.period.getD 0)
    let stopByte (c : CarState) : Byte :=
      BitVec.ofNat 8 ((match c.record with | some r => 1 + 2 * phaseCode r.phase | none => 0) + if c.live then 16 else 0)
    let latched := allCauses.any fun c => c.trackBrake && (decide (s.osb.first = some c) || causeIn s.osb.further c)
    ∃ t d, exec (.readLineStatus (.fields {})) s = .next t ∧ answered t .ok 0x80 d ∧ keptBut [.result] s t
    ∧ d.length = 79
    ∧ d[0]? = some (BitVec.ofNat 8 (bits [s.hasGeometry, s.geo.referenced, s.geo.travelUp, s.geo.inspection,
        s.tsr.clockSet]))
    ∧ (d.drop 1).take 5 = be4 s.len ++ be1 ((s.geo.active.header.map (·.count)).getD 0)
    ∧ (d.drop 6).take 4 = be4 (s.geo.pA / 1000)
    ∧ (d.drop 10).take 4 = sbe4 (if s.hasGeometry then (s.len : Int) - (s.geo.pA / 1000 : Nat) else 0)
    ∧ d[14]? = some (BitVec.ofNat 8 (s.current.getD 0xFF))
    ∧ (d.drop 15).take 7 = channel s.spd.rope ∧ (d.drop 22).take 7 = channel s.spd.drive
    ∧ (d.drop 29).take 2 = be2 s.spd.vMeas
    ∧ d[31]? = some (BitVec.ofNat 8 (bits [s.atRest, decide (s.spd.slip = .slip), decide (s.spd.slip = .disagree),
        s.spd.slipDue.isSome]))
    ∧ (d.drop 32).take 4 = be2 s.tsr.day ++ be2 s.tsr.minute
    ∧ d[36]? = some (BitVec.ofNat 8 (lineCode s.haul.line)) ∧ d[37]? = some (BitVec.ofNat 8 (haltCode s.haul.haltCause))
    ∧ (∀ r, s.haul.run = some r →
        d[38]? = some (BitVec.ofNat 8 (bits [true, r.up, decide (r.origin = .halted)]))
        ∧ (d.drop 39).take 7 = be1 r.target ++ be2 r.speed ++ be2 r.gMax ++ be2 r.aEff)
    ∧ (s.haul.run = none → (d.drop 38).take 8 = List.replicate 8 0)
    ∧ d[46]? = some (BitVec.ofNat 8 (s.haul.loadA.getD 0xFF)) ∧ d[47]? = some (BitVec.ofNat 8 (s.haul.loadB.getD 0xFF))
    ∧ (d.drop 48).take 6 = be2 s.haul.vPerm ++ be2 s.haul.vSup ++ be2 s.haul.vDem
    ∧ d[54]? = some (BitVec.ofNat 8 (bits [s.mon.w2.raised, s.mon.m2.raised, s.mon.overtension.raised, s.alarmHold]))
    ∧ d[55]? = some (BitVec.ofNat 8 (bits [s.haul.driveEnable, s.haul.driveDirHigh, s.haul.torqueReady]))
    ∧ (d.drop 56).take 2 = be2 s.haul.pwmDuty
    ∧ (d.drop 58).take 8 = be2 s.osb.t1 ++ be2 s.osb.t2 ++ be2 s.osb.vAbs ++ be2 s.osb.interventions
    ∧ d[66]? = some (BitVec.ofNat 8 ((s.osb.first.map causeCode).getD 0))
    ∧ d[67]? = some (BitVec.ofNat 8 ((s.osb.fromState.map lineCode).getD 0))
    ∧ (d.drop 68).take 4 = be2 s.osb.vTrip ++ be2 s.osb.further.toNat
    ∧ d[72]? = some (BitVec.ofNat 8 (bits [s.osb.hold, latched, !s.osb.resetElapsed && s.osb.resetDue.isSome,
        s.osb.resetElapsed, s.osb.safetyReleased, s.osb.serviceReleased, s.osb.estop, s.osb.driveFault]))
    ∧ d[73]? = some (stopByte s.stp.carA) ∧ d[74]? = some (stopByte s.stp.carB)
    ∧ d[75]? = some (BitVec.ofNat 8 (bits [s.mon.w1.raised, s.mon.w2.raised, s.mon.frost.raised, s.mon.m1.raised,
        s.mon.m2.raised, s.mon.slack.raised, s.mon.overtension.raised]))
    ∧ d[76]? = some (BitVec.ofNat 8 (bits [s.mon.wind.fault, s.mon.tension.fault, s.mon.rail.fault, s.mon.motor.fault]))
    ∧ (d.drop 77).take 2 = be2 s.lnk.attention.toNat

/-- SENSE returns the attention set and empties it, and the attention line is released. SOFT RESET is judged by the line
state; accepted, it takes the line to PARKED, discards the stop records, the run record and every claim without a memory,
and leaves SOFT RESET alone in the attention set, while position, channels, clock, restrictions, monitor, parameters,
links and the entitlement records stay (R90, R111, R135, R148, R170, R174, R183, R184, R186). -/
def Obligations.SenseAndSoftResetReplaceTheAttentionSet : Prop :=
  ∀ s : State,
    (∃ t, exec (.sense (.fields {})) s = .next t ∧ answered t .ok 0x82 (be2 s.lnk.attention.toNat)
      ∧ keptBut [.attention, .result] s t ∧ t.lnk.attention = 0 ∧ t.attentionLow = false)
    ∧ (s.running = true ∨ s.haul.line = .tripped →
      ∃ t, exec (.softReset (.fields {})) s = .next t ∧ answered t .wrongState 0x83 [] ∧ keptBut [.result] s t)
    ∧ (s.haul.line = .dwell ∨ s.haul.line = .halted → s.atRest = false →
      ∃ t, exec (.softReset (.fields {})) s = .next t ∧ answered t .refused 0x83 [0x01] ∧ keptBut [.result] s t)
    ∧ (s.haul.line = .parked ∨ ((s.haul.line = .dwell ∨ s.haul.line = .halted) ∧ s.atRest = true) →
      ∃ t, exec (.softReset (.fields {})) s = .next t ∧ answered t .ok 0x83 []
        ∧ keptBut (partsOf (.softReset (.fields {}))) s t ∧ boardingInv t
        ∧ t.haul.line = .parked ∧ t.haul.haltCause = .noCause ∧ t.haul.run = none ∧ t.haul.loadA = none
        ∧ t.haul.loadB = none ∧ t.haul.vPerm = 0 ∧ t.haul.vSup = 0 ∧ t.haul.vDem = 0 ∧ t.haul.driveEnable = false
        ∧ t.haul.pwmDuty = 0 ∧ t.haul.pwmDue = s.haul.pwmDue ∧ t.haul.torqueDue = none
        ∧ t.osb.interventions = 0 ∧ t.osb.first = none ∧ t.osb.further = 0 ∧ t.osb.hold = true
        ∧ t.osb.resetDue = none ∧ t.osb.resetElapsed = false ∧ t.osb.safetyReleased = false
        ∧ t.osb.serviceReleased = false ∧ t.osb.t1 = min 13000 (s.par 0x71) ∧ t.osb.t2 = min 13000 (s.par 0x73)
        ∧ t.osb.vAbs = s.par 0x74
        ∧ (∀ c, t.record c = none ∧ (t.car c).pendingAlarm = false ∧ (t.car c).evacLeft = false
            ∧ (t.car c).evacRight = false)
        ∧ t.adm.claims = [] ∧ t.adm.lastClaimId = s.adm.lastClaimId
        ∧ (∀ k, entGet t.ent.table k = (entGet s.ent.table k).map fun r => { r with claim := none })
        ∧ (∀ k, t.gate k = (s.gate k).map fun g => { g with
            memory := none
            answer := match g.answer with
              | .admission _ _ _ => .refuse .outOfService
              | a => a })
        ∧ t.lnk.attention = attentionMask .softReset)

/-! ### Speed channels and rest -/

/-- A raw change of a phase is taken unless it is the taken level or comes within 20 µs of the phase's previous taken edge;
a taken edge of phase A with phase B low is a counting edge: it moves pA by the rope distance per pulse within the bounds,
sets the direction, restarts the standstill timer, forms a period and a speed from the second edge on, clears the
at-rest flag, and at the line's leaving rest ends the evacuations, the trip reset wait, and hands DOOR MOTION and DOOR
OPEN where R99 says, in TRIPPED as a further cause and in PARKED without effect (R8, R9, R19 to R22, R25, R26, R99, R100,
R105, R132). That the row carries the time of its edge is log 3, that the first candidate after reset is taken at once log
39, and that the door causes are judged on the state before the edge log 26. -/
def Obligations.CountingEdgeMovesPositionAndChannel : Prop :=
  ∀ (ch : Channel) (level : Bool) (stamp : Nat) (s : State),
    let now := max s.now stamp
    let c := s.chan ch
    let soon (last : Option Nat) : Prop := ∃ e ∈ last, now < e + 20
    exec (.takenPhaseEdge ch .a level stamp) s = exec (.countingEdge ch level stamp) s
    ∧ (level = c.levelA ∨ soon c.edgeA → exec (.countingEdge ch level stamp) s = .next { s with now := now })
    ∧ (level = c.levelB ∨ soon c.edgeB → exec (.takenPhaseEdge ch .b level stamp) s = .next { s with now := now })
    ∧ (level ≠ c.levelB → ¬soon c.edgeB → ∃ t, exec (.takenPhaseEdge ch .b level stamp) s = .next t
        ∧ keptBut [.time, .rope, .drive] s t ∧ t.now = now
        ∧ ∀ d, t.chan d = if d = ch then { c with levelB := level, edgeB := some now } else s.chan d)
    ∧ (level ≠ c.levelA → ¬soon c.edgeA → c.levelB = true →
      ∃ t, exec (.countingEdge ch level stamp) s = .next t ∧ keptBut [.time, .rope, .drive] s t ∧ t.now = now
        ∧ ∀ d, t.chan d = if d = ch then { c with levelA := level, edgeA := some now } else s.chan d)
    ∧ (level ≠ c.levelA → ¬soon c.edgeA → c.levelB = false →
      let period := now - c.lastEdge
      let distance := s.par (match ch with | .rope => 0x20 | .drive => 0x21)
      let first := decide (c.capture = .standstill)
      let c1 : SpeedChannel := { c with
        levelA := level, edgeA := some now, forward := level, lastEdge := now
        standDue := some (now + ms (s.par 0x22))
        capture := if first then .starting else .measuring
        period := if first then none else some period
        speed := if first then 0 else min 13000 (distance * 1000 / period) }
      ∃ t, exec (.countingEdge ch level stamp) s = .next t ∧ t.now = now ∧ boardingInv t
        ∧ (∀ d, t.chan d = if d = ch then c1 else s.chan d)
        ∧ t.spd.vMeas = (if first then s.spd.vMeas else max t.spd.rope.speed t.spd.drive.speed)
        ∧ t.spd.restSince = none ∧ t.spd.restDue = none
        ∧ (ch = .rope → t.geo.travelUp = level ∧ t.geo.referenced = s.geo.referenced
            ∧ t.geo.pA = if level then min (s.geo.pA + distance) s.countBound else s.geo.pA - distance)
        ∧ (ch = .drive → samePart .position s t)
        ∧ (s.atRest = true →
            t.osb.resetDue = none ∧ t.osb.resetElapsed = false ∧ (∀ e f, (t.car e).evac f = false)
            ∧ (s.haul.line = .parked → t.haul.line = .parked ∧ t.osb.first = s.osb.first ∧ t.osb.further = s.osb.further)
            ∧ (s.haul.line = .tripped →
              let added := s.anyRelease && decide (s.osb.first ≠ some .doorMotion)
              t.haul.line = .tripped ∧ t.osb.first = s.osb.first ∧ t.osb.fromState = s.osb.fromState
              ∧ t.osb.hold = s.osb.hold
              ∧ (∀ d : TripCause, causeIn t.osb.further d = (causeIn s.osb.further d || (added && decide (d = .doorMotion))))
              ∧ (added = true → causeIn s.osb.further .doorMotion = false → hasAttention t .trip = true))
            ∧ (s.haul.line ≠ .parked → s.haul.line ≠ .tripped →
              (s.anyRelease = true → ¬(s.haul.line = .halted ∧ s.allLocked = false) →
                t.haul.line = .tripped ∧ t.osb.first = some .doorMotion)
              ∧ (s.anyRelease = false → s.haul.line = .halted → s.allLocked = false →
                t.haul.line = .tripped ∧ t.osb.first = some .doorOpen)
              ∧ (s.anyRelease = true → s.haul.line = .halted → s.allLocked = false →
                t.haul.line = .tripped
                ∧ ((t.osb.first = some .doorMotion ∧ causeIn t.osb.further .doorOpen = true)
                  ∨ (t.osb.first = some .doorOpen ∧ causeIn t.osb.further .doorMotion = true)))
              ∧ (s.anyRelease = false → ¬(s.haul.line = .halted ∧ s.allLocked = false) → first = true →
                t.haul.line = s.haul.line))))

/-- pA is held within counting bounds: a counting edge of the rope channel moves it by the distance per pulse, to 0 where it
would fall below 0, and to the upper bound where it would rise above it, L + 5,000 mm with an active geometry and 4,005,000 mm
without one. Saturation changes neither the position state nor the travel direction, and raises no attention cause: the edge
raises what it raises from any other pA. From the bound the first edge in the other direction moves pA away. With pA above L,
pB is negative, down to −5,000 mm, and a comparison with pB uses that value (R9). -/
def Obligations.CountingBoundsHoldThePosition : Prop :=
  ∀ (up : Bool) (stamp e : Nat) (s : State),
    s.spd.rope.edgeA = some e → e + 20 ≤ max s.now stamp → s.spd.rope.levelA = !up → s.spd.rope.levelB = false →
    let distance := s.par 0x20
    let bound := if s.hasGeometry then (s.len + 5000) * 1000 else 4005000 * 1000
    ∃ t, exec (.countingEdge .rope up stamp) s = .next t
      ∧ (up = true → t.geo.pA = if bound < s.geo.pA + distance then bound else s.geo.pA + distance)
      ∧ (up = false → t.geo.pA = if s.geo.pA < distance then 0 else s.geo.pA - distance)
      ∧ (paramsWf s.params = true → (up = false → s.geo.pA = bound → t.geo.pA < bound)
        ∧ (up = true → s.geo.pA = 0 → 0 < t.geo.pA))
      ∧ t.geo.referenced = s.geo.referenced ∧ t.geo.travelUp = up
      ∧ (s.haul.line = .parked → t.lnk.attention = s.lnk.attention)
      ∧ (∀ (q : Nat) (w : State), w = { s with geo := { s.geo with pA := q } } →
          (s.atRest = true → w.anyRelease = s.anyRelease) →
          ∃ u, exec (.countingEdge .rope up stamp) w = .next u ∧ u.lnk.attention = t.lnk.attention)
      ∧ (s.hasGeometry = true → t.posB = (s.len : Int) - (t.geo.pA / 1000 : Nat)
        ∧ (s.geo.pA ≤ bound → -5000 ≤ t.posB) ∧ (t.posB < 0 ↔ s.len < t.geo.pA / 1000)
        ∧ ∀ k, t.berthed .b k = true ↔ s.geo.referenced = true
            ∧ ((s.len : Int) - (t.geo.pA / 1000 : Nat) - s.geo.active.berth k).natAbs ≤ s.par 0x10)

/-- A publication of a speed of either channel by a counting edge: v_meas is the larger speed, the slip test is made, and
on the ROPE channel the rollback test, which hands ROLLBACK when the condition goes present. In STARTING, MOVING,
INTERVENING and HALTED v_meas is compared, each limit strictly: above v_abs it trips with ABSOLUTE OVERSPEED (and OVERSPEED
after it where t2 is exceeded too), else above t2 with OVERSPEED; else in MOVING above t1 it enters INTERVENING, and in
INTERVENING the release test returns it to MOVING; elsewhere nothing is compared (R22, R25, R27, R28, R29, R92 to R94, R96,
R100, R101, R104). The comparisons at STANDSTILL_TIMEOUT and at HAUL_SAMPLE are in SpeedTimersExpire and
HaulSampleComputesTheSpeeds. Where ROLLBACK and a cause of the comparison arrive together either is first (log 6); the time of the edge
is log 3, the order of the tests log 35, and the demand after a release log 27. -/
def Obligations.OverspeedIsComparedAtEachPublication : Prop :=
  ∀ (ch : Channel) (level : Bool) (stamp : Nat) (s : State),
    let now := max s.now stamp
    let c := s.chan ch
    level ≠ c.levelA → (∀ e ∈ c.edgeA, e + 20 ≤ now) → c.levelB = false → c.capture ≠ .standstill → s.atRest = false →
    let distance := s.par (match ch with | .rope => 0x20 | .drive => 0x21)
    let speed := min 13000 (distance * 1000 / (now - c.lastEdge))
    let v := max speed (match ch with | .rope => s.spd.drive.speed | .drive => s.spd.rope.speed)
    let rolls := decide (ch = .rope ∧ s.running = true ∧ s.par 0x26 < speed) && (s.haul.run.map fun r => r.up != level).getD false
    let rollback := rolls && !s.spd.rollback
    ∃ t, exec (.countingEdge ch level stamp) s = .next t ∧ t.now = now ∧ t.spd.vMeas = v ∧ (t.chan ch).speed = speed
      ∧ slipTested s t ∧ t.haul.run = s.haul.run ∧ t.haul.vSup = s.haul.vSup
      ∧ (ch = .rope → t.spd.rollback = (rolls && decide (t.haul.line ≠ .tripped)))
      ∧ (ch = .drive → t.haul.line ≠ .tripped → s.running = true → t.spd.rollback = s.spd.rollback)
      ∧ (rollback = true → tookTogether .rollback v s.osb s t)
      ∧ (rollback = false → comparisonLeaves s.haul.line v s.haul.vPerm s.osb s t
        ∧ (s.haul.line = .moving → t.haul.line = .moving → t.haul.vDem = s.haul.vDem))

/-- The timers of the speed channels. STANDSTILL_TIMEOUT publishes 0, the slip test and OSB's comparison follow with the
other channel's speed as v_meas, and the rest timer starts when the other channel stands too; REST_CONFIRM sets the flag, and
the line comes to rest in DWELL at car A's station or in HALTED, or in TRIPPED the trip reset wait starts, or in DWELL each
ARRIVED record is tested for the berthed conditions
(R23, R25 to R29, R78, R86, R92 to R94, R105, R120). The time at which an expiry row is taken is the model's (log 3). So is
the slip test ahead of the comparison (log 35), and so is the demand after a release to MOVING: R86, R87 and R94 do not say
what v_dem is before the next sample, and it is left at 0 with the ramp held until then (log 27). -/
def Obligations.SpeedTimersExpire : Prop :=
  ∀ (s : State) (due : Nat),
    let now := max s.now due
    (∀ ch : Channel, (s.chan ch).standDue = some due →
      let other : Channel := match ch with | .rope => .drive | .drive => .rope
      ∃ t, exec (.standstillTimeout ch) s = .next t ∧ t.now = now ∧ boardingInv t
        ∧ t.chan ch = { s.chan ch with capture := .standstill, period := none, speed := 0, standDue := none }
        ∧ t.chan other = s.chan other ∧ t.spd.vMeas = (s.chan other).speed ∧ t.spd.restSince = s.spd.restSince
        ∧ slipTested s t ∧ (ch = .rope → t.spd.rollback = false)
        ∧ comparisonLeaves s.haul.line (s.chan other).speed s.haul.vPerm s.osb s t
        ∧ (s.haul.line = .moving → t.haul.line = .moving → t.haul.vDem = s.haul.vDem)
        ∧ t.spd.restDue = (if (s.chan other).capture = .standstill then some (now + ms (s.par 0x23))
            else s.spd.restDue))
    ∧ (s.spd.restDue = some due →
      let u : State := { s with now := now, spd := { s.spd with restDue := none, restSince := some now } }
      ∃ t, exec .restConfirm s = .next t ∧ t.now = now ∧ boardingInv t
        ∧ t.spd.restSince = some now ∧ t.spd.restDue = none
        ∧ (s.haul.line = .moving ∨ s.haul.line = .intervening ∨ s.haul.line = .halted →
            ∀ k, s.current = some k → enteredDwell k u t)
        ∧ (s.haul.line = .moving ∨ s.haul.line = .intervening → s.current = none → enteredHalted .offBerth u t)
        ∧ (s.haul.line = .halted → s.current = none →
            t.haul.line = .halted ∧ t.haul.haltCause = s.haul.haltCause ∧ t.haul.run = s.haul.run)
        ∧ (s.haul.line = .tripped → t.haul.line = .tripped ∧ t.osb.resetElapsed = false
            ∧ t.osb.resetDue = some (now + sec (s.par 0x76)))
        ∧ (s.haul.line = .parked ∨ s.haul.line = .dwell ∨ s.haul.line = .starting →
            t.haul.line = s.haul.line ∧ t.haul.run = s.haul.run)
        ∧ (s.haul.line = .parked ∨ s.haul.line = .starting ∨ s.haul.line = .tripped → ∀ c, t.record c = s.record c)
        ∧ (s.haul.line = .dwell → ∀ c q, s.record c = some q →
          let tested := arrivedRecord u c (u.berthed c q.station && (u.car c).live) q
          t.record c = some (if q.phase = .arrived ∧ s.geo.inspection = false then tested else q)
          ∧ (q.phase = .arrived → s.geo.inspection = false → tested.phase ≠ .arrived → hasAttention t .stopPhase = true)))

/-! ### Datum inputs -/

/-- DATUM_EDGE: a level already active gives no edge, a station not in use only its level; an edge in use is attributed by
R11 and corrects, checks or re-references the position, or is a position fault, which ends a run in HALTED (R10 to R15). A
correction to a point below 0 is held at the counting bound 0, which is the model's choice (log 12).
DATUM_LEVEL_INACTIVE takes the level alone. -/
def Obligations.DatumEdgesCorrectOrFault : Prop :=
  ∀ (k : Fin 4) (s : State),
    exec (.datumLevelInactive k) s = .next { s with geo := { s.geo with datum := s.geo.datum.set k false } }
    ∧ (s.geo.datum.getD k false = true → exec (.datumEdge k) s = .next s)
    ∧ (s.geo.datum.getD k false = false → (s.hasGeometry = false ∨ s.inUse k = false) →
      exec (.datumEdge k) s = .next { s with geo := { s.geo with datum := s.geo.datum.set k true } })
    ∧ (s.geo.datum.getD k false = false → s.hasGeometry = true → s.inUse k = true →
      let berth := s.berth k
      let d := s.par 0x12
      let w := s.par 0x13
      let dA := (s.posA - (berth : Int)).natAbs
      let dB := (s.posB - (berth : Int)).natAbs
      let devA : Int := (if s.geo.travelUp then (berth : Int) - s.posA else s.posA - berth) - d
      let devB : Int := (if s.geo.travelUp then s.posB - (berth : Int) else berth - s.posB) - d
      let toA := decide (dA ≤ d + w ∧ (d + w < dB ∨ dA ≤ dB))
      let toB := decide (dB ≤ d + w ∧ (d + w < dA ∨ dB < dA))
      ∃ t, exec (.datumEdge k) s = .next t ∧ t.geo.datum = s.geo.datum.set k true ∧ boardingInv t
        ∧ t.geo.travelUp = s.geo.travelUp
        ∧ ((s.geo.referenced = true ∧ toA = true ∧ devA.natAbs ≤ w) ∨ (s.geo.referenced = false ∧ dA ≤ dB) →
          t.geo.referenced = true ∧ t.geo.pA = (if s.geo.travelUp then berth - d else berth + d) * 1000
          ∧ t.haul.line = s.haul.line)
        ∧ ((s.geo.referenced = true ∧ toB = true ∧ devB.natAbs ≤ w) ∨ (s.geo.referenced = false ∧ dB < dA) →
          samePart .position s t ∧ t.haul.line = s.haul.line)
        ∧ (s.geo.referenced = true →
          (toA = false ∧ toB = false) ∨ (toA = true ∧ w < devA.natAbs) ∨ (toB = true ∧ w < devB.natAbs) →
          t.geo.referenced = false ∧ t.geo.pA = s.geo.pA ∧ hasAttention t .positionFault = true
          ∧ (s.running = true → enteredHalted .positionFault s t)
          ∧ (s.running = false → t.haul.line = s.haul.line ∧ t.haul.haltCause = s.haul.haltCause)))

/-! ### Environment monitor -/

/-- MONITOR_SAMPLE: the reading is faulted or scaled by R50, the fault flag and MONITOR follow R51, a good sample counts each
condition of the channel by R52 and R53, a faulted one forces them by R54, and no other channel or condition changes. W1
owns entries 0 to 4 and FROST entry 5, written only with an active geometry (R55 to R57); a raised SLACK hands SLACK ROPE,
which trips the line, joins the further causes in TRIPPED and is ignored in PARKED, and a raised OVERTENSION ends a run (R59,
R76, R100); MONITOR is raised at each change of a condition or of the fault flag and at nothing else (R60). That a fault before
the first good sample forces the conditions too is log 13, the next sample 100 ms after this one's deadline log 28, and the
time at which the row is taken log 3. -/
def Obligations.MonitorSampleEvaluatesItsConditions : Prop :=
  ∀ (ch : MonChannel) (x : BitVec 12) (s : State),
    let r := x.toNat
    let c := s.mon.channel ch
    let bad := decide (r ≤ 639 ∨ 4081 ≤ r)
    let v4 := (s.scale ch).1
    let v20 := (s.scale ch).2
    let v : Int := if r < 800 then v4 else if 4000 < r then v20 else v4 + ((r : Int) - 800) * (v20 - v4) / 3200
    let good (k : CondId) : Cond :=
      let q := s.mon.cond k
      if q.raised then
        if s.pastClear k v then
          if s.sustainOf k ≤ q.clearCount + 1 then ⟨false, 0, 0⟩ else { q with clearCount := q.clearCount + 1 }
        else { q with clearCount := 0 }
      else if s.pastRaise k v then
        if raiseCountOf k ≤ q.raiseCount + 1 then ⟨true, 0, 0⟩ else { q with raiseCount := q.raiseCount + 1 }
      else { q with raiseCount := 0 }
    let after (k : CondId) : Cond :=
      if k ∉ condsOf ch then s.mon.cond k
      else if !bad then good k
      else if k = .slack then ⟨(s.mon.cond k).raised, 0, 0⟩
      else ⟨true, 0, 0⟩
    ∃ t, exec (.monitorSample ch x) s = .next t ∧ t.now = max s.now c.due ∧ boardingInv t
      ∧ t.mon.channel ch = { c with
          raw := r, due := c.due + 100000, fault := bad
          value := if bad then c.value else v
          valid := if bad then c.valid else true }
      ∧ (∀ d, d ≠ ch → t.mon.channel d = s.mon.channel d)
      ∧ (∀ k, t.mon.cond k = after k)
      ∧ (hasAttention t .monitor = true ↔ hasAttention s .monitor = true ∨ c.fault ≠ bad
          ∨ ∃ k, (after k).raised ≠ (s.mon.cond k).raised)
      ∧ (∀ n, 6 ≤ n → t.entry n = s.entry n)
      ∧ (s.mon.frost.raised = false → (after .frost).raised = true → s.hasGeometry = true → s.tsr.table.length = 32 →
          t.entry 5 = some ⟨true, 0, s.len, max (s.par 0x31) s.creep, .both, none, none, none⟩)
      ∧ (s.mon.frost.raised = true → (after .frost).raised = false → t.entry 5 = none)
      ∧ ((after .frost).raised = s.mon.frost.raised ∨ (s.mon.frost.raised = false ∧ s.hasGeometry = false) →
          t.entry 5 = s.entry 5)
      ∧ (s.mon.w1.raised = false → (after .w1).raised = true → s.hasGeometry = true → s.tsr.table.length = 32 →
          ∀ n < 5, t.entry n = s.geo.active.exposedRuns[n]?.map fun y =>
            ⟨true, y.1, y.2, max (s.par 0x30) s.creep, .both, none, none, none⟩)
      ∧ (s.mon.w1.raised = true → (after .w1).raised = false → ∀ n < 5, t.entry n = none)
      ∧ ((after .w1).raised = s.mon.w1.raised ∨ (s.mon.w1.raised = false ∧ s.hasGeometry = false) →
          ∀ n < 5, t.entry n = s.entry n)
      ∧ (s.mon.slack.raised = false → (after .slack).raised = true →
          (s.haul.line ≠ .parked → s.haul.line ≠ .tripped →
            t.haul.line = .tripped ∧ t.osb.first = some .slackRope ∧ t.osb.further = 0 ∧ t.osb.hold = false
            ∧ t.osb.fromState = some s.haul.line)
          ∧ (s.haul.line = .tripped → t.haul.line = .tripped ∧ t.osb.first = s.osb.first
            ∧ t.osb.fromState = s.osb.fromState
            ∧ (if s.osb.first = some .slackRope ∨ causeIn s.osb.further .slackRope then samePart .latch s t ∧ samePart .hold s t
              else t.osb.hold = false ∧ hasAttention t .trip = true
                ∧ ∀ d : TripCause, causeIn t.osb.further d = (causeIn s.osb.further d || decide (d = .slackRope))))
          ∧ (s.haul.line = .parked → t.haul.line = .parked ∧ samePart .latch s t ∧ samePart .hold s t))
      ∧ (s.mon.overtension.raised = false → (after .overtension).raised = true →
          (after .slack).raised = s.mon.slack.raised → s.running = true → enteredHalted .overtension s t)
      ∧ ((after .slack).raised = s.mon.slack.raised ∨ (after .slack).raised = false →
          (after .overtension).raised = s.mon.overtension.raised ∨ (after .overtension).raised = false ∨ s.running = false →
          keptBut [.time, .monitor, .restrictions, .attention, .boarding] s t)

/-! ### Haul samples and starts -/

/-- HAUL_SAMPLE: v_perm is the least of the terms of R81 in RUNNING and 0 elsewhere, v_sup falls no faster than the fall
rate of the run, v_dem rises no faster than the ramp, both thresholds follow v_sup and v_abs takes the parameter's value;
OSB compares with them; arriving UNREFERENCED ends the run, and an overrun trips the line with the causes of the comparison
(R79 to R81, R83, R85, R86, R91 to R94, R110). The terms of R81 are stated one by one in PermittedSpeedIsTheLeastOfItsTerms. The order within
a sample is log 9, the demand after a release log 27, the next sample counted from this one's deadline log 28, and the time
at which the row is taken log 3. -/
def Obligations.HaulSampleComputesTheSpeeds : Prop :=
  ∀ s : State,
    let step := s.par 0x64
    ∃ t, exec .haulSample s = .next t ∧ t.now = max s.now s.haul.haulDue
      ∧ t.haul.haulDue = s.haul.haulDue + ms step ∧ boardingInv t
      ∧ t.osb.t1 = min 13000 (t.haul.vSup + t.haul.vSup * s.par 0x70 / 256 + s.par 0x71)
      ∧ t.osb.t2 = min 13000 (t.haul.vSup + t.haul.vSup * s.par 0x72 / 256 + s.par 0x73)
      ∧ t.osb.vAbs = s.par 0x74
      ∧ (s.running = false →
          t.haul.vPerm = 0 ∧ t.haul.vDem = 0
          ∧ t.haul.vSup = s.haul.vSup - ((s.haul.run.map (·.aEff)).getD (s.par 0x60)) * step / 1000
          ∧ comparisonLeaves s.haul.line s.spd.vMeas 0 t.osb s t)
      ∧ (s.arrivedUnreferenced = true → t.haul.vPerm = 0 ∧ t.haul.vDem = 0 ∧ t.record .a = none ∧ t.record .b = none
          ∧ t.haul.run = s.haul.run ∧ t.haul.haltCause = .notReferenced
          ∧ comparisonLeaves .halted s.spd.vMeas 0 t.osb s t)
      ∧ ∀ r, s.running = true → s.haul.run = some r → s.arrivedUnreferenced = false →
          let v := leastSpeed (s.permittedTerms r)
          (∀ x ∈ s.permittedTerms r, v ≤ x) ∧ v ≤ 12000 ∧ (v = 12000 ∨ v ∈ s.permittedTerms r)
          ∧ t.haul.vSup = max v (s.haul.vSup - r.aEff * step / 1000)
          ∧ t.haul.vPerm = (if t.haul.line = .tripped then 0 else v)
          ∧ (s.haul.line = .moving → t.haul.line = .moving →
              t.haul.vDem = min v (s.haul.rampFrom + s.par 0x63 * step / 1000) ∧ t.haul.rampFrom = t.haul.vDem)
          ∧ (s.haul.line ≠ .moving ∨ t.haul.line ≠ .moving → t.haul.vDem = 0)
          ∧ (s.remaining r < -(s.window : Int) → tookTogether .overrun s.spd.vMeas t.osb s t)
          ∧ (-(s.window : Int) ≤ s.remaining r → comparisonLeaves s.haul.line s.spd.vMeas v t.osb s t)

/-- The permitted speed never exceeds any term that is present, is clamped to 12,000 mm/s, and is one of the terms where it
is below that: at a haul sample in RUNNING, and at the entry to STARTING that a START RUN makes (R4, R38, R69, R70, R80 to
R84). The terms are those of SpeedTerm, one case for each row of the table of R81. At a sample that trips the line it is 0
(log 9), and a leading end beyond the track lies on its first or last segment (log 10). -/
def Obligations.PermittedSpeedIsTheLeastOfItsTerms : Prop :=
  ∀ s : State, s.hasGeometry = true → geometryInv s.geo.active →
    (∀ r, s.running = true → s.haul.run = some r → s.arrivedUnreferenced = false →
      ∃ t, exec .haulSample s = .next t
        ∧ (t.haul.line ≠ .tripped → leastTerm s r t.haul.vPerm) ∧ (t.haul.line = .tripped → t.haul.vPerm = 0))
    ∧ ∀ a : RunArgs, refusedBy (startRunChecks a s) = none → speedInv s →
      ∃ t r, exec (.startRun (.fields a)) s = .next t ∧ t.haul.run = some r ∧ leastTerm t r t.haul.vPerm

/-- isqrt is the integer square root rounded down, and the values that the braking curves and the stop envelope are computed
from stay within the bounds of R84: every step keeps a target speed at or below 12,000, a_eff at or below 1,200 and, with pA
within its bounds, a distance to a point of the track, or to the stop, at or below L + 5,000 + 2h; the largest argument is
9,900,000,000, which is below 2^34; and v_perm is clamped to 12,000 (R84). -/
def Obligations.IntegerSquareRootRoundsDown : Prop :=
  (∀ n, n < 2 ^ 40 → isqrt n * isqrt n ≤ n ∧ n < (isqrt n + 1) * (isqrt n + 1))
  ∧ curvesInv State.reset
  ∧ (∀ s t : State, paramsWf s.params = true → curvesInv s → step s = .next t → curvesInv t)
  ∧ (∀ s : State, paramsWf s.params = true → positionInv s → s.hasGeometry = true →
      ∀ (r : RunRecord) (c : Car) (x : Int), 0 ≤ x → x ≤ s.len →
        (x - leadingEnd s (r.carUp c) (s.pos c)).natAbs ≤ s.len + 5000 + 2 * s.par 0x11
        ∧ (s.inUse r.target = true → s.remaining r ≤ s.len + 5000 + 2 * s.par 0x11)
        ∧ s.len + 5000 + 2 * s.par 0x11 ≤ 4065000)
  ∧ (∀ vt a d : Nat, vt ≤ 12000 → a ≤ 1200 → d ≤ 4065000 → vt * vt + 2 * a * d ≤ 9900000000 ∧ 9900000000 < 2 ^ 34)
  ∧ ∀ s : State, ∃ t, exec .haulSample s = .next t ∧ t.haul.vPerm ≤ 12000

/-- TORQUE_READY in STARTING discards the stop records and enters MOVING; its timeout returns the line to DWELL with the same
records, or to HALTED, with cause START FAILED; an input already active, or one that changes in another state, changes its
level alone. PWM_PERIOD takes the duty from v_dem (R64, R73, R74, R102). The row of an input already active is log 25, the
next period 1 ms after this one's deadline log 28, and the time at which an expiry row is taken log 3. -/
def Obligations.StartsEndInMovingOrFail : Prop :=
  ∀ s : State,
    (s.haul.torqueReady = true → exec .torqueReady s = .next s)
    ∧ exec .torqueReadyInactive s = .next { s with haul := { s.haul with torqueReady := false } }
    ∧ (s.haul.torqueReady = false → s.haul.line ≠ .starting →
      exec .torqueReady s = .next { s with haul := { s.haul with torqueReady := true } })
    ∧ (s.haul.torqueReady = false → s.haul.line = .starting →
      ∃ t, exec .torqueReady s = .next t ∧ boardingInv t ∧ t.haul.line = .moving ∧ t.haul.torqueReady = true
        ∧ t.haul.torqueDue = none ∧ t.record .a = none ∧ t.record .b = none ∧ t.haul.driveEnable = true
        ∧ t.osb.safetyReleased = true ∧ t.osb.serviceReleased = true ∧ t.haul.vDem = 0 ∧ t.haul.rampFrom = 0
        ∧ t.haul.vPerm = s.haul.vPerm ∧ t.haul.vSup = s.haul.vSup ∧ t.haul.run = s.haul.run
        ∧ hasAttention t .lineState = true)
    ∧ (∀ due r, s.haul.torqueDue = some due → s.haul.run = some r →
      let u : State := { s with now := max s.now due }
      ∃ t, exec .torqueReadyTimeout s = .next t ∧ t.now = u.now ∧ boardingInv t
        ∧ (r.origin = .dwell → standsInDwell u t ∧ t.haul.haltCause = .startFailed
            ∧ ∀ c, t.record c = (s.record c).map fun q => { q with alarm := q.alarm || (s.car c).pendingAlarm })
        ∧ (r.origin = .halted → enteredHalted .startFailed u t))
    ∧ exec .pwmPeriod s = .next { s with
        now := max s.now s.haul.pwmDue
        haul := { s.haul with pwmDue := s.haul.pwmDue + 1000, pwmDuty := s.haul.vDem * 4095 / 13000 } }

/-! ### Car links -/

/-- DOWNLINK builds and sends a frame from the state as it stands: sequence, a release or a close bit for each side, the
track-brake hold, the line state. CAR_LINK_TIMEOUT makes the link LOST, ends the car's evacuations and, in RUNNING, enters
HALTED with cause CAR LINK. The other car stays as it was, but for a stop record that the entry to HALTED discards (R76,
R112, R114, R126, R132, section 11.6). The next frame 50 ms after this one's deadline is log 28, the sequence before the
first frame log 30, and the time at which an expiry row is taken log 3. -/
def Obligations.CarLinkTimersActOnOneCar : Prop :=
  ∀ (c : Car) (s : State),
    let x := s.car c
    let seq : Byte := match x.kept with
      | [] => 0
      | y :: _ => y + 1
    let l := s.released c .left
    let r := s.released c .right
    (∃ t, exec (.downlink c) s = .next t ∧ keptBut [.time, .links, .records] s t ∧ t.now = max s.now x.downDue
      ∧ t.car (otherCar c) = s.car (otherCar c)
      ∧ t.car c = { x with
          downDue := x.downDue + 50000
          kept := (seq :: x.kept).take 4
          lastFrame := withCrc [if c = .a then 1 else 2, seq, BitVec.ofNat 8 (bits [l, !l, r, !r, s.osb.hold]),
            BitVec.ofNat 8 (lineCode s.haul.line)]
          record := x.record.map fun q => { q with
            close := q.close.map fun y => { y with frames := min 4 (y.frames + 1) } } })
    ∧ ∀ due, x.linkDue = some due →
      ∃ t, exec (.carLinkTimeout c) s = .next t ∧ t.now = max s.now due ∧ boardingInv t
        ∧ (t.car c).live = false ∧ (t.car c).linkDue = none ∧ (t.car c).evacLeft = false
        ∧ (t.car c).evacRight = false ∧ (t.car c).report = x.report ∧ (t.car c).kept = x.kept
        ∧ (∀ d, t.released c d = false) ∧ hasAttention t .carLink = true
        ∧ (s.running = true → enteredHalted .carLink { s with now := max s.now due } t
            ∧ t.car (otherCar c) = { s.car (otherCar c) with record := none })
        ∧ (s.running = false → t.haul.line = s.haul.line ∧ t.haul.haltCause = s.haul.haltCause
            ∧ t.record c = s.record c ∧ t.car (otherCar c) = s.car (otherCar c))

/-- UPLINK: a frame that fails parity, length, CRC, car id or echo is discarded; a valid one makes the link LIVE, restarts its
timer and replaces the report. A side not LOCKED trips a moving line with DOOR OPEN and ends a start. In DWELL and TRIPPED
the car's stop record alone is acted on: an ARRIVED one is tested, a confirmed exit close enters BOARDING, the admitted-run
count returning to 0 at a terminal, a confirmed close in CLOSING enters READY with the car's load figure or waits for held, a
confirmation is withdrawn, and a READY record returns to CLOSING. A new alarm is recorded (R75, R99, R113 to R115, R118 to
R121, R123, R124, R128, R193). The order of these effects is log 31. -/
def Obligations.UplinkIsJudgedAndActedOn : Prop :=
  ∀ (c : Car) (ok : Bool) (id echo doors flags l0 l1 k0 k1 : Byte) (s : State),
    let frame := [id, echo, doors, flags, l0, l1, k0, k1]
    let x := s.car c
    let valid := ok && crcGood frame && decide (id = if c = .a then 1 else 2) && x.kept.contains echo
    let report : Report :=
      { left := doorOf (doors.toNat % 16), right := doorOf (doors.toNat / 16), echo := echo
        trackBrake := flags.getLsbD 0, alarm := flags.getLsbD 1, loadValid := flags.getLsbD 2
        unitFault := flags.getLsbD 3, load := l0.toNat * 256 + l1.toNat, takenAt := s.now }
    let locked := decide (report.left = .locked ∧ report.right = .locked)
    let oldAlarm := (x.report.map (·.alarm)).getD false
    (∀ other : List Byte, other.length ≠ 8 → exec (.uplink c ok other) s = .next s)
    ∧ (valid = false → exec (.uplink c ok frame) s = .next s)
    ∧ (valid = true → ∃ t, exec (.uplink c ok frame) s = .next t ∧ boardingInv t ∧ t.now = s.now
      ∧ (t.car c).live = true ∧ (t.car c).linkDue = some (s.now + ms (s.par 0x80)) ∧ (t.car c).report = some report
      ∧ (x.live = false ∨ report.unitFault ≠ (x.report.map (·.unitFault)).getD false →
          hasAttention t .carLink = true)
      ∧ (locked = false →
        (s.haul.line = .moving ∨ s.haul.line = .intervening ∨ (s.haul.line = .halted ∧ s.atRest = false) →
          t.haul.line = .tripped ∧ t.osb.first = some .doorOpen ∧ t.osb.fromState = some s.haul.line)
        ∧ (∀ r, s.haul.line = .starting → s.haul.run = some r →
          (r.origin = .halted → enteredHalted .doors s t)
          ∧ (r.origin = .dwell → standsInDwell s t ∧ t.haul.haltCause = .noCause
            ∧ ∀ q, s.record c = some q → q.phase = .ready →
              ∃ p ∈ t.record c, p.phase = .closing ∧ p.close = some ⟨false, 0, false⟩
                ∧ p.closeDue = some (s.now + sec (s.par 0x82)))))
      ∧ (locked = true → t.haul.line = s.haul.line)
      ∧ (∀ q y, s.record c = some q → q.phase = .closing → q.close = some y → y.exitOnly = false → locked = true →
          y.confirmed = true ∨ x.kept.findIdx (fun z => z == echo) < y.frames → q.held = 0 → q.reopening = false →
          let base := q.wOpen.getD 0 + q.boarded
          let weighed := if report.loadValid then (report.load + s.par 0x83 - 1) / s.par 0x83 else base
          ∃ p ∈ t.record c, p.phase = .ready ∧ p.closeDue = none ∧ p.boarded = q.boarded
            ∧ (match c with | .a => t.haul.loadA | .b => t.haul.loadB) = some (min 250 (max weighed base))
            ∧ hasAttention t .stopPhase = true)
      ∧ (s.haul.line = .dwell ∨ s.haul.line = .tripped → t.haul.line = s.haul.line ∧ t.car (otherCar c) = s.car (otherCar c)
        ∧ ∀ q, s.record c = some q →
          let alarmed (p : StopRecord) : Prop :=
            t.record c = some { p with alarm := p.alarm || (report.alarm && !oldAlarm) }
          let u := s.setCar c { x with live := true, report := some report }
          let echoed (y : Close) : Bool := decide (x.kept.findIdx (fun z => z == echo) < y.frames)
          let closeBy := some (s.now + sec (s.par 0x82))
          let weighed (fallback : Nat) : Nat :=
            if report.loadValid then (report.load + s.par 0x83 - 1) / s.par 0x83 else fallback
          (q.phase = .arrived →
            alarmed (arrivedRecord u c (s.berthed c q.station && s.atRest && decide (s.haul.line = .dwell)) q))
          ∧ (∀ y d z, q.phase = .alighting → q.close = some y → y.exitOnly = true →
              s.geo.active.station q.station = some z → z.separateExit = some d →
              (match d with | .left => report.left | .right => report.right) = .locked → echoed y = true →
              let admitted := if q.station = 0 ∨ q.station = 3 then 0 else x.admitted
              alarmed { q with
                  phase := .boarding, wOpen := some (weighed admitted), quota := s.capacity - weighed admitted
                  phaseDue := some (s.now + sec z.board), closeDue := none, close := none }
              ∧ (t.car c).admitted = admitted ∧ hasAttention t .stopPhase = true)
          ∧ (∀ y, q.phase = .alighting → q.close = some y → echoed y = false → alarmed q)
          ∧ (∀ y d z, q.phase = .alighting → q.close = some y → y.exitOnly = true →
              s.geo.active.station q.station = some z → z.separateExit = some d →
              (match d with | .left => report.left | .right => report.right) ≠ .locked → alarmed q)
          ∧ (q.phase = .boarding ∨ ((q.phase = .alighting ∨ q.phase = .closing) ∧ q.close = none) → alarmed q)
          ∧ (∀ y, q.phase = .closing → q.close = some y → y.confirmed = true → locked = false →
              alarmed { q with close := some { y with confirmed := false }, closeDue := closeBy })
          ∧ (∀ y, q.phase = .closing → q.close = some y → y.confirmed = true → locked = true →
              q.held ≠ 0 ∨ q.reopening = true → alarmed q)
          ∧ (∀ y, q.phase = .closing → q.close = some y → y.confirmed = false → y.exitOnly = false → locked = true →
              echoed y = true → q.held ≠ 0 ∨ q.reopening = true → alarmed { q with close := some { y with confirmed := true }, closeDue := none })
          ∧ (∀ y, q.phase = .closing → q.close = some y → y.confirmed = false →
              (locked = false ∧ y.exitOnly = false) ∨ echoed y = false → alarmed q)
          ∧ (q.phase = .ready → locked = true → alarmed q)
          ∧ (q.phase = .ready → locked = false →
              alarmed { q with
                phase := .closing, phaseDue := none, reopening := false, close := some ⟨false, 0, false⟩, closeDue := closeBy }
              ∧ hasAttention t .stopPhase = true))
      ∧ (report.alarm = true → oldAlarm = false → hasAttention t .passengerAlarm = true
          ∧ ((∃ q ∈ t.record c, q.alarm = true) ∨ (t.car c).pendingAlarm = true)))

/-- The deadlines of a stop record: the close deadline sets the door fault flag, the alight time makes the exit close, the
board time enters CLOSING, the reopen time commands both sides closed again (R119, R121, R122, R125). The time at which an
expiry row is taken, from which the close deadline is counted, is the model's (log 3). -/
def Obligations.StopDeadlinesExpire : Prop :=
  ∀ (c : Car) (s : State) (r : StopRecord) (due : Nat), s.record c = some r →
    let now := max s.now due
    let closeBy := some (now + sec (s.par 0x82))
    (r.closeDue = some due → ∃ t, exec (.doorFault c) s = .next t ∧ keptBut [.time, .records, .attention] s t
      ∧ t.now = now ∧ t.record c = some { r with doorFault := true, closeDue := none }
      ∧ t.lnk.attention = s.lnk.attention ||| attentionMask .doorFault
      ∧ t.record (otherCar c) = s.record (otherCar c))
    ∧ (r.phaseDue = some due →
      (r.phase = .alighting → ∃ t, exec (.alightTimeExpiry c) s = .next t ∧ keptBut [.time, .records] s t ∧ t.now = now
        ∧ t.record c = some { r with phaseDue := none, close := some ⟨true, 0, false⟩, closeDue := closeBy }
        ∧ t.record (otherCar c) = s.record (otherCar c))
      ∧ (r.phase = .boarding → ∃ t, exec (.boardTimeExpiry c) s = .next t
        ∧ keptBut [.time, .records, .attention, .boarding] s t ∧ t.now = now ∧ boardingInv t
        ∧ t.lnk.attention = s.lnk.attention ||| attentionMask .stopPhase
        ∧ t.record c = some { r with phase := .closing, phaseDue := none, reopening := false,
                                      close := some ⟨false, 0, false⟩, closeDue := closeBy }
        ∧ t.record (otherCar c) = s.record (otherCar c))
      ∧ (r.phase = .closing → ∃ t, exec (.reopenTimeExpiry c) s = .next t ∧ keptBut [.time, .records] s t ∧ t.now = now
        ∧ t.record c = some { r with reopening := false, phaseDue := none, close := some ⟨false, 0, false⟩,
                                      closeDue := closeBy }
        ∧ t.record (otherCar c) = s.record (otherCar c)))
    ∧ ((r.closeDue = none → exec (.doorFault c) s = .next s)
      ∧ (r.phase ≠ .alighting ∨ r.phaseDue = none → exec (.alightTimeExpiry c) s = .next s)
      ∧ (r.phase ≠ .boarding ∨ r.phaseDue = none → exec (.boardTimeExpiry c) s = .next s)
      ∧ (r.phase ≠ .closing ∨ r.phaseDue = none → exec (.reopenTimeExpiry c) s = .next s))

/-! ### Gate bus and admission -/

/-- POLL_SLOT: with a response outstanding the slot waits; otherwise the arbiter chooses a broadcast, then every fourth poll
the normal class, then the urgent class, then the normal class, each in turn, and the frame is built from the state as it
stands; a slot that waits begins when the response, or the expiry of its window, has been handled (R157 to R161, section
11.5). The poll count rises after each slot that carries a poll, 3 being followed by 0, and stays at a broadcast or an empty
one. The window's start (log 22), the waiting (log 23), a slot lasting until the next begins (log 41) and the time at which an
expiry row is taken, from which the next slot and the window are counted (log 3), are the model's choice. -/
def Obligations.PollSlotFollowsTheArbiter : Prop :=
  (∀ (s t : State) (ok : Bool) (frame : List Byte), s.adm.polled.isSome → s.adm.pollDue = none →
    exec (.gateResponse ok frame) { s with adm := { s.adm with pollDue := some 0 } } = .next t →
    exec (.gateResponse ok frame) s = .next t.beginSlot)
  ∧ (∀ s t : State, s.adm.polled.isSome → s.adm.windowDue.isSome → s.adm.pollDue = none →
    exec .responseWindowExpiry { s with adm := { s.adm with pollDue := some 0 } } = .next t →
    exec .responseWindowExpiry s = .next t.beginSlot)
  ∧ ∀ (s : State) (due : Nat), s.adm.pollDue = some due → s.adm.gates.length = 16 →
    let now := max s.now due
    let count := pollCountAfter s
    (s.adm.polled.isSome →
      exec .pollSlot s = .next { s with now := now, adm := { s.adm with pollDue := none } })
    ∧ (s.adm.polled = none →
      ∃ t, exec .pollSlot s = .next t ∧ keptBut [.time, .poll, .gates, .boarding] s t ∧ t.now = now
        ∧ t.adm.pollDue = some (now + ms (s.par 0x90)) ∧ t.adm.boarding = s.adm.boarding
        ∧ t.adm.pollCount = count
        ∧ (s.adm.broadcastPending = true →
          t.adm.broadcastPending = false ∧ t.adm.gates = s.adm.gates ∧ t.adm.polled = none ∧ t.adm.windowDue = none
          ∧ t.adm.slotPolls = false ∧ t.adm.normalPtr = s.adm.normalPtr ∧ t.adm.urgentPtr = s.adm.urgentPtr
          ∧ t.adm.lastFrame = withCrc [0, BitVec.ofNat 8
              (s.adm.boarding.foldr (fun b acc => boardingCode b + 4 * acc) 0)])
        ∧ (s.adm.broadcastPending = false →
          t.adm.broadcastPending = false
          ∧ (∀ k g, s.gate k = some g → nextInTurn (normalGate s) s.adm.normalPtr k →
            count = 3 ∨ (∀ j, ¬urgentGate s j) →
            pollsGate now k g s t ∧ t.adm.normalPtr = k ∧ t.adm.urgentPtr = s.adm.urgentPtr)
          ∧ (∀ k g, s.gate k = some g → nextInTurn (urgentGate s) s.adm.urgentPtr k → count ≠ 3 →
            pollsGate now k g s t ∧ t.adm.urgentPtr = k ∧ t.adm.normalPtr = s.adm.normalPtr)
          ∧ ((∀ j, ¬normalGate s j) → t.adm.gates = s.adm.gates ∧ t.adm.polled = none ∧ t.adm.windowDue = none
            ∧ t.adm.slotPolls = false ∧ t.adm.lastFrame = s.adm.lastFrame)))

/-- A broadcast frame is addressed to gate address 0 and carries the boarding states of stations 0 to 3 as they stand when it
is built, station k in bits 2k + 1 and 2k of its second byte (section 11.5). No gate answers it: characters received before
the next slot begins are discarded, and it changes no gate's toggle, reply or link state (R160). -/
def Obligations.BroadcastCarriesTheBoardingStates : Prop :=
  ∀ (s : State) (due : Nat), s.adm.pollDue = some due → s.adm.polled = none → s.adm.broadcastPending = true →
    boardingInv s →
    ∃ (t : State) (b : Byte), exec .pollSlot s = .next t ∧ t.adm.lastFrame = withCrc [0, b]
      ∧ (∀ k < 4, (b.extractLsb' (2 * k) 2).toNat = boardingCode (s.stationBoarding k))
      ∧ t.adm.gates = s.adm.gates ∧ t.adm.polled = none ∧ t.adm.broadcastPending = false
      ∧ ∀ (ok : Bool) (frame : List Byte), exec (.gateResponse ok frame) t = .next t

/-- GATE_RESPONSE of an awaited gate: a frame that is not good is a miss, as is RESPONSE_WINDOW_EXPIRY; a good one makes
the gate ONLINE with its health, a duplicate is answered again, and a taken PRESENT is refused with the first check of R164
that fails, or opens a claim: held rises, the record is marked, the reply is ADMIT. At a gate that still holds a claim, that
claim lapses first and the rest follows as in the state it leaves (R158, R161 to R166, R192, section 11.5). That bits 5 and 4
of the response head are ignored is log 16, what a gate without a station is told log 19, and the time at which an expiry row
is taken log 3. -/
def Obligations.GateResponseOpensClaims : Prop :=
  ∀ (ok : Bool) (addr head : Byte) (body : List Byte) (a : Nat) (g : Gate) (s : State),
    s.adm.polled = some a → s.gate a = some g → s.adm.pollDue.isSome → entWf s.ent.table = true →
    let kind := (head.toNat / 2) % 8
    let toggle := head.getLsbD 0
    let health := healthOf (head.toNat / 64)
    let frame := withCrc ([addr, head] ++ body)
    let length := if kind = 0 then 0 else if kind = 1 then 5 else if kind = 2 then 2 else 1
    let good := ok && decide (addr.toNat = a ∧ kind ≤ 3 ∧ body.length = length)
    let online : Gate := { g with misses := 0, online := true, health := health }
    let missed (u t : State) : Prop :=
      keptBut [.poll, .gates, .attention] u t ∧ t.adm.polled = none ∧ t.adm.windowDue = none
      ∧ t.adm.pollDue = s.adm.pollDue ∧ (∀ j, j ≠ a → t.gate j = s.gate j)
      ∧ let off := g.online && decide (s.par 0x91 ≤ min 255 (g.misses + 1))
        t.gate a = some { g with misses := min 255 (g.misses + 1), online := g.online && !off }
        ∧ t.lnk.attention = s.lnk.attention ||| (if off then attentionMask .gate else 0)
    (∀ other, crcGood other = false → ∃ t, exec (.gateResponse ok other) s = .next t ∧ missed s t)
    ∧ (good = false → ∃ t, exec (.gateResponse ok frame) s = .next t ∧ missed s t)
    ∧ (∀ due, s.adm.windowDue = some due → ∃ t, exec .responseWindowExpiry s = .next t
        ∧ missed { s with now := max s.now due } t)
    ∧ (good = true → ∃ t, exec (.gateResponse ok frame) s = .next t ∧ boardingInv t
      ∧ t.adm.polled = none ∧ t.adm.windowDue = none ∧ t.adm.pollDue = s.adm.pollDue
      ∧ (∀ j, j ≠ a → t.gate j = s.gate j)
      ∧ (g.online = false ∨ g.health ≠ health → hasAttention t .gate = true)
      ∧ (kind = 0 → t.gate a = some online ∧ keptBut [.poll, .gates, .attention, .boarding] s t)
      ∧ (kind ≠ 0 → g.toggle = some toggle →
          t.gate a = some { online with replyPending := true } ∧ keptBut [.poll, .gates, .attention, .boarding] s t)
      ∧ (∀ b0 b1 b2 b3 b4, kind = 1 → body = [b0, b1, b2, b3, b4] → g.toggle ≠ some toggle → s.claimOf a = none →
        let found := entFind s.ent.table (b0 ++ b1 ++ b2 ++ b3 ++ b4)
        (∀ why, refusalOf (presentChecks s g.station (found.map (·.2))) = some why →
          answeredGate t a toggle (.refuse why) ∧ keptBut [.poll, .gates, .attention, .boarding] s t)
        ∧ (∀ slot r c q k, refusalOf (presentChecks s g.station (found.map (·.2))) = none → found = some (slot, r) →
          g.station = some k → s.recordAt k = some (c, q) →
          let places := min r.group (q.quota - q.boarded - q.held)
          let persons := if r.kind = .multi then min places (r.rides.getD 0) else places
          ∃ id, id ≠ 0 ∧ id = t.adm.lastClaimId
            ∧ answeredGate t a toggle
              (.admission id persons (if r.kind = .multi then r.rides.getD 0 - persons else 255))
            ∧ (s.adm.claims.length ≤ 16 → s.adm.gates.length = 16 →
                (∀ x ∈ s.adm.claims, x.id ≠ id) ∧ ∀ j x m, s.gate j = some x → x.memory = some m → m.id ≠ id)
            ∧ t.adm.claims = s.adm.claims ++ [⟨id, a, c, slot, r.media, persons, s.now + sec (s.par 0xA0)⟩]
            ∧ t.record c = some { q with held := q.held + persons } ∧ t.record (otherCar c) = s.record (otherCar c)
            ∧ entGet t.ent.table slot = some { r with claim := some ⟨a, id⟩ }
            ∧ ∀ m, m ≠ slot → entGet t.ent.table m = entGet s.ent.table m))
      ∧ (∀ x u, kind = 1 → g.toggle ≠ some toggle → s.claimOf a = some x → admissionInv s →
          exec (.claimLapse x.id) s = .next u →
          exec (.gateResponse ok frame) s = exec (.gateResponse ok frame) { u with now := s.now }))

/-- The ends of a claim: PASSED settles it (boarded rises, held falls, the on-time commit), ABANDONED ends it, CLAIM_LAPSE
returns the places and leaves a memory at the gate, and a PASSED on that memory is a late passage with its late commit,
counted where the memory's stop record is in BOARDING or CLOSING; a PASSED or ABANDONED whose id is not that of the gate's
own open claim leaves that claim as it is; a record in CLOSING that waited for held enters READY; no
other entitlement slot changes (R117, R118, R123, R124, R149 to R151, R163, R166 to R169). Without an awaited gate a response
is discarded (log 24); that bits 5 and 4 of the response head are ignored is log 16, and the time at which a lapse is taken
log 3. -/
def Obligations.ClaimsEndByPassageAbandonmentOrLapse : Prop :=
  (∀ s : State, s.adm.polled = none → ∀ ok frame, exec (.gateResponse ok frame) s = .next s)
  ∧ ∀ (a : Nat) (g : Gate) (head id n : Byte) (s : State), s.gate a = some g → a ≤ 16 → entWf s.ent.table = true →
    let toggle := head.getLsbD 0
    let message (kind : Nat) : Prop :=
      head.toNat / 2 % 8 = kind ∧ s.adm.polled = some a ∧ s.adm.pollDue.isSome ∧ g.toggle ≠ some toggle
    let respond (body : List Byte) : Host.Outcome State Fault Refusal :=
      exec (.gateResponse true (withCrc ([BitVec.ofNat 8 a, head] ++ body))) s
    let station := g.station.getD 0
    let others (slot : Nat) (t : State) : Prop := ∀ m, m ≠ slot → entGet t.ent.table m = entGet s.ent.table m
    (∀ c q x r, s.record c = some q → s.claimOf a = some x → x.id = id → x.car = c →
      entGet s.ent.table x.slot = some r →
      let after (q1 : StopRecord) (t : State) : Prop :=
        t.record c = some (releasedRecord q1 x.persons) ∧ t.record (otherCar c) = s.record (otherCar c)
        ∧ fixesLoad c q (releasedRecord q1 x.persons) s t ∧ boardingInv t
        ∧ t.adm.claims = s.adm.claims.filter (fun y => y.id != id) ∧ others x.slot t
      (∀ body, (message 3 ∧ body = [id]) ∨ (message 2 ∧ body = [id, n] ∧ n = 0) →
        ∃ t, respond body = .next t ∧ after q t ∧ answeredGate t a toggle .noAnswer
          ∧ entGet t.ent.table x.slot = some { r with claim := none } ∧ (t.car c).admitted = (s.car c).admitted
          ∧ (t.gate a).bind (·.memory) = g.memory)
      ∧ (message 2 → 0 < n.toNat →
        let k := min (min n.toNat 9) x.persons
        let took := min k (250 - q.boarded)
        ∃ t, respond [id, n] = .next t ∧ after { q with boarded := q.boarded + took } t
          ∧ answeredGate t a toggle .noAnswer
          ∧ (t.car c).admitted = min 65535 ((s.car c).admitted + took)
          ∧ entGet t.ent.table x.slot = afterCommit s station k r)
      ∧ (s.claimById id = some x →
        ∃ t, exec (.claimLapse id) s = .next t ∧ after q t ∧ t.now = max s.now x.due
          ∧ entGet t.ent.table x.slot = some { r with claim := none } ∧ (t.car c).admitted = (s.car c).admitted
          ∧ t.gate a = some { g with memory := some ⟨id, x.media, x.persons, station, some c⟩ }))
    ∧ ((∀ x ∈ s.claimOf a, x.id ≠ id) → message 2 →
      (∀ m, g.memory = some m → m.id = id → 0 < n.toNat →
        let k := min (min n.toNat 9) m.persons
        let counted (c : Car) (q : StopRecord) : Bool :=
          decide (m.record = some c ∧ (q.phase = .boarding ∨ q.phase = .closing))
        let took (q : StopRecord) : Nat := min k (250 - q.boarded)
        ∃ t, respond [id, n] = .next t ∧ boardingInv t ∧ answeredGate t a toggle (.late id)
          ∧ (t.gate a).bind (·.memory) = none ∧ t.adm.claims = s.adm.claims
          ∧ (∀ c, t.record c = (s.record c).map fun q =>
              if counted c q then { q with boarded := q.boarded + took q, late := q.late + took q } else q)
          ∧ (∀ c, (∀ q, s.record c = some q → counted c q = true →
                (t.car c).admitted = min 65535 ((s.car c).admitted + took q))
              ∧ ((∀ q, s.record c = some q → counted c q = false) → (t.car c).admitted = (s.car c).admitted))
          ∧ (entFind s.ent.table m.media = none → t.ent = s.ent)
          ∧ ∀ slot r, entFind s.ent.table m.media = some (slot, r) →
            (r.claim.isSome → t.ent = s.ent)
            ∧ (r.claim = none → entGet t.ent.table slot = afterCommit s m.station k r ∧ others slot t))
      ∧ ((∀ m ∈ g.memory, m.id ≠ id) ∨ n = 0 →
        ∃ t, respond [id, n] = .next t ∧ boardingInv t ∧ answeredGate t a toggle (.late id)
          ∧ t.adm.claims = s.adm.claims ∧ (∀ c, t.car c = s.car c) ∧ t.ent = s.ent
          ∧ (t.gate a).bind (·.memory) = g.memory))
    ∧ ((∀ x ∈ s.claimOf a, x.id ≠ id) → message 3 →
      ∃ t, respond [id] = .next t ∧ boardingInv t ∧ answeredGate t a toggle .noAnswer
        ∧ t.adm.claims = s.adm.claims ∧ (∀ c, t.car c = s.car c) ∧ t.ent = s.ent
        ∧ (t.gate a).bind (·.memory) = g.memory.filter (fun m => m.id != id))

end
end

