-- ==== Sys2Proof/Laws/State.lean ====
section
/-! SUPPORT. What each plain update of the state leaves of every field: one lemma for each field and update. -/

namespace Sys2Proof.Machine

set_option Elab.async false

@[simp] theorem State.reply_now (s : State) (c : Byte) (rc : ResultCode) (d : List Byte) : (s.reply c rc d).now = s.now := rfl
@[simp] theorem State.reply_params (s : State) (c : Byte) (rc : ResultCode) (d : List Byte) : (s.reply c rc d).params = s.params := rfl
@[simp] theorem State.reply_geo (s : State) (c : Byte) (rc : ResultCode) (d : List Byte) : (s.reply c rc d).geo = s.geo := rfl
@[simp] theorem State.reply_spd (s : State) (c : Byte) (rc : ResultCode) (d : List Byte) : (s.reply c rc d).spd = s.spd := rfl
@[simp] theorem State.reply_tsr (s : State) (c : Byte) (rc : ResultCode) (d : List Byte) : (s.reply c rc d).tsr = s.tsr := rfl
@[simp] theorem State.reply_mon (s : State) (c : Byte) (rc : ResultCode) (d : List Byte) : (s.reply c rc d).mon = s.mon := rfl
@[simp] theorem State.reply_haul (s : State) (c : Byte) (rc : ResultCode) (d : List Byte) : (s.reply c rc d).haul = s.haul := rfl
@[simp] theorem State.reply_osb (s : State) (c : Byte) (rc : ResultCode) (d : List Byte) : (s.reply c rc d).osb = s.osb := rfl
@[simp] theorem State.reply_stp (s : State) (c : Byte) (rc : ResultCode) (d : List Byte) : (s.reply c rc d).stp = s.stp := rfl
@[simp] theorem State.reply_ent (s : State) (c : Byte) (rc : ResultCode) (d : List Byte) : (s.reply c rc d).ent = s.ent := rfl
@[simp] theorem State.reply_adm (s : State) (c : Byte) (rc : ResultCode) (d : List Byte) : (s.reply c rc d).adm = s.adm := rfl
@[simp] theorem State.reply_choices (s : State) (c : Byte) (rc : ResultCode) (d : List Byte) : (s.reply c rc d).choices = s.choices := rfl
@[simp] theorem State.reply_pending (s : State) (c : Byte) (rc : ResultCode) (d : List Byte) : (s.reply c rc d).pending = s.pending := rfl

@[simp] theorem State.refuse_now (s : State) (c : Byte) (x : Condition) : (s.refuse c x).now = s.now := rfl
@[simp] theorem State.refuse_params (s : State) (c : Byte) (x : Condition) : (s.refuse c x).params = s.params := rfl
@[simp] theorem State.refuse_geo (s : State) (c : Byte) (x : Condition) : (s.refuse c x).geo = s.geo := rfl
@[simp] theorem State.refuse_spd (s : State) (c : Byte) (x : Condition) : (s.refuse c x).spd = s.spd := rfl
@[simp] theorem State.refuse_tsr (s : State) (c : Byte) (x : Condition) : (s.refuse c x).tsr = s.tsr := rfl
@[simp] theorem State.refuse_mon (s : State) (c : Byte) (x : Condition) : (s.refuse c x).mon = s.mon := rfl
@[simp] theorem State.refuse_haul (s : State) (c : Byte) (x : Condition) : (s.refuse c x).haul = s.haul := rfl
@[simp] theorem State.refuse_osb (s : State) (c : Byte) (x : Condition) : (s.refuse c x).osb = s.osb := rfl
@[simp] theorem State.refuse_stp (s : State) (c : Byte) (x : Condition) : (s.refuse c x).stp = s.stp := rfl
@[simp] theorem State.refuse_ent (s : State) (c : Byte) (x : Condition) : (s.refuse c x).ent = s.ent := rfl
@[simp] theorem State.refuse_adm (s : State) (c : Byte) (x : Condition) : (s.refuse c x).adm = s.adm := rfl
@[simp] theorem State.refuse_choices (s : State) (c : Byte) (x : Condition) : (s.refuse c x).choices = s.choices := rfl
@[simp] theorem State.refuse_pending (s : State) (c : Byte) (x : Condition) : (s.refuse c x).pending = s.pending := rfl

@[simp] theorem State.raise_now (s : State) (c : Attention) : (s.raise c).now = s.now := rfl
@[simp] theorem State.raise_params (s : State) (c : Attention) : (s.raise c).params = s.params := rfl
@[simp] theorem State.raise_geo (s : State) (c : Attention) : (s.raise c).geo = s.geo := rfl
@[simp] theorem State.raise_spd (s : State) (c : Attention) : (s.raise c).spd = s.spd := rfl
@[simp] theorem State.raise_tsr (s : State) (c : Attention) : (s.raise c).tsr = s.tsr := rfl
@[simp] theorem State.raise_mon (s : State) (c : Attention) : (s.raise c).mon = s.mon := rfl
@[simp] theorem State.raise_haul (s : State) (c : Attention) : (s.raise c).haul = s.haul := rfl
@[simp] theorem State.raise_osb (s : State) (c : Attention) : (s.raise c).osb = s.osb := rfl
@[simp] theorem State.raise_stp (s : State) (c : Attention) : (s.raise c).stp = s.stp := rfl
@[simp] theorem State.raise_ent (s : State) (c : Attention) : (s.raise c).ent = s.ent := rfl
@[simp] theorem State.raise_adm (s : State) (c : Attention) : (s.raise c).adm = s.adm := rfl
@[simp] theorem State.raise_choices (s : State) (c : Attention) : (s.raise c).choices = s.choices := rfl
@[simp] theorem State.raise_pending (s : State) (c : Attention) : (s.raise c).pending = s.pending := rfl

@[simp] theorem State.advance_params (s : State) (t : Nat) : (s.advance t).params = s.params := rfl
@[simp] theorem State.advance_geo (s : State) (t : Nat) : (s.advance t).geo = s.geo := rfl
@[simp] theorem State.advance_spd (s : State) (t : Nat) : (s.advance t).spd = s.spd := rfl
@[simp] theorem State.advance_tsr (s : State) (t : Nat) : (s.advance t).tsr = s.tsr := rfl
@[simp] theorem State.advance_mon (s : State) (t : Nat) : (s.advance t).mon = s.mon := rfl
@[simp] theorem State.advance_haul (s : State) (t : Nat) : (s.advance t).haul = s.haul := rfl
@[simp] theorem State.advance_osb (s : State) (t : Nat) : (s.advance t).osb = s.osb := rfl
@[simp] theorem State.advance_stp (s : State) (t : Nat) : (s.advance t).stp = s.stp := rfl
@[simp] theorem State.advance_ent (s : State) (t : Nat) : (s.advance t).ent = s.ent := rfl
@[simp] theorem State.advance_adm (s : State) (t : Nat) : (s.advance t).adm = s.adm := rfl
@[simp] theorem State.advance_lnk (s : State) (t : Nat) : (s.advance t).lnk = s.lnk := rfl
@[simp] theorem State.advance_choices (s : State) (t : Nat) : (s.advance t).choices = s.choices := rfl
@[simp] theorem State.advance_pending (s : State) (t : Nat) : (s.advance t).pending = s.pending := rfl

@[simp] theorem State.endEvacuations_now (s : State) : s.endEvacuations.now = s.now := rfl
@[simp] theorem State.endEvacuations_params (s : State) : s.endEvacuations.params = s.params := rfl
@[simp] theorem State.endEvacuations_geo (s : State) : s.endEvacuations.geo = s.geo := rfl
@[simp] theorem State.endEvacuations_spd (s : State) : s.endEvacuations.spd = s.spd := rfl
@[simp] theorem State.endEvacuations_tsr (s : State) : s.endEvacuations.tsr = s.tsr := rfl
@[simp] theorem State.endEvacuations_mon (s : State) : s.endEvacuations.mon = s.mon := rfl
@[simp] theorem State.endEvacuations_haul (s : State) : s.endEvacuations.haul = s.haul := rfl
@[simp] theorem State.endEvacuations_osb (s : State) : s.endEvacuations.osb = s.osb := rfl
@[simp] theorem State.endEvacuations_ent (s : State) : s.endEvacuations.ent = s.ent := rfl
@[simp] theorem State.endEvacuations_adm (s : State) : s.endEvacuations.adm = s.adm := rfl
@[simp] theorem State.endEvacuations_lnk (s : State) : s.endEvacuations.lnk = s.lnk := rfl
@[simp] theorem State.endEvacuations_choices (s : State) : s.endEvacuations.choices = s.choices := rfl
@[simp] theorem State.endEvacuations_pending (s : State) : s.endEvacuations.pending = s.pending := rfl

@[simp] theorem State.setEnt_now (s : State) (t : EntTable) : (s.setEnt t).now = s.now := rfl
@[simp] theorem State.setEnt_params (s : State) (t : EntTable) : (s.setEnt t).params = s.params := rfl
@[simp] theorem State.setEnt_geo (s : State) (t : EntTable) : (s.setEnt t).geo = s.geo := rfl
@[simp] theorem State.setEnt_spd (s : State) (t : EntTable) : (s.setEnt t).spd = s.spd := rfl
@[simp] theorem State.setEnt_tsr (s : State) (t : EntTable) : (s.setEnt t).tsr = s.tsr := rfl
@[simp] theorem State.setEnt_mon (s : State) (t : EntTable) : (s.setEnt t).mon = s.mon := rfl
@[simp] theorem State.setEnt_haul (s : State) (t : EntTable) : (s.setEnt t).haul = s.haul := rfl
@[simp] theorem State.setEnt_osb (s : State) (t : EntTable) : (s.setEnt t).osb = s.osb := rfl
@[simp] theorem State.setEnt_stp (s : State) (t : EntTable) : (s.setEnt t).stp = s.stp := rfl
@[simp] theorem State.setEnt_adm (s : State) (t : EntTable) : (s.setEnt t).adm = s.adm := rfl
@[simp] theorem State.setEnt_lnk (s : State) (t : EntTable) : (s.setEnt t).lnk = s.lnk := rfl
@[simp] theorem State.setEnt_choices (s : State) (t : EntTable) : (s.setEnt t).choices = s.choices := rfl
@[simp] theorem State.setEnt_pending (s : State) (t : EntTable) : (s.setEnt t).pending = s.pending := rfl

@[simp] theorem State.detachClaim_now (s : State) (n : Nat) : (s.detachClaim n).now = s.now := rfl
@[simp] theorem State.detachClaim_params (s : State) (n : Nat) : (s.detachClaim n).params = s.params := rfl
@[simp] theorem State.detachClaim_geo (s : State) (n : Nat) : (s.detachClaim n).geo = s.geo := rfl
@[simp] theorem State.detachClaim_spd (s : State) (n : Nat) : (s.detachClaim n).spd = s.spd := rfl
@[simp] theorem State.detachClaim_tsr (s : State) (n : Nat) : (s.detachClaim n).tsr = s.tsr := rfl
@[simp] theorem State.detachClaim_mon (s : State) (n : Nat) : (s.detachClaim n).mon = s.mon := rfl
@[simp] theorem State.detachClaim_haul (s : State) (n : Nat) : (s.detachClaim n).haul = s.haul := rfl
@[simp] theorem State.detachClaim_osb (s : State) (n : Nat) : (s.detachClaim n).osb = s.osb := rfl
@[simp] theorem State.detachClaim_stp (s : State) (n : Nat) : (s.detachClaim n).stp = s.stp := rfl
@[simp] theorem State.detachClaim_adm (s : State) (n : Nat) : (s.detachClaim n).adm = s.adm := rfl
@[simp] theorem State.detachClaim_lnk (s : State) (n : Nat) : (s.detachClaim n).lnk = s.lnk := rfl
@[simp] theorem State.detachClaim_choices (s : State) (n : Nat) : (s.detachClaim n).choices = s.choices := rfl
@[simp] theorem State.detachClaim_pending (s : State) (n : Nat) : (s.detachClaim n).pending = s.pending := rfl

@[simp] theorem State.dropClaim_now (s : State) (id : Byte) : (s.dropClaim id).now = s.now := rfl
@[simp] theorem State.dropClaim_params (s : State) (id : Byte) : (s.dropClaim id).params = s.params := rfl
@[simp] theorem State.dropClaim_geo (s : State) (id : Byte) : (s.dropClaim id).geo = s.geo := rfl
@[simp] theorem State.dropClaim_spd (s : State) (id : Byte) : (s.dropClaim id).spd = s.spd := rfl
@[simp] theorem State.dropClaim_tsr (s : State) (id : Byte) : (s.dropClaim id).tsr = s.tsr := rfl
@[simp] theorem State.dropClaim_mon (s : State) (id : Byte) : (s.dropClaim id).mon = s.mon := rfl
@[simp] theorem State.dropClaim_haul (s : State) (id : Byte) : (s.dropClaim id).haul = s.haul := rfl
@[simp] theorem State.dropClaim_osb (s : State) (id : Byte) : (s.dropClaim id).osb = s.osb := rfl
@[simp] theorem State.dropClaim_stp (s : State) (id : Byte) : (s.dropClaim id).stp = s.stp := rfl
@[simp] theorem State.dropClaim_ent (s : State) (id : Byte) : (s.dropClaim id).ent = s.ent := rfl
@[simp] theorem State.dropClaim_lnk (s : State) (id : Byte) : (s.dropClaim id).lnk = s.lnk := rfl
@[simp] theorem State.dropClaim_choices (s : State) (id : Byte) : (s.dropClaim id).choices = s.choices := rfl
@[simp] theorem State.dropClaim_pending (s : State) (id : Byte) : (s.dropClaim id).pending = s.pending := rfl

@[simp] theorem State.forgetRecord_now (s : State) (c : Car) : (s.forgetRecord c).now = s.now := rfl
@[simp] theorem State.forgetRecord_params (s : State) (c : Car) : (s.forgetRecord c).params = s.params := rfl
@[simp] theorem State.forgetRecord_geo (s : State) (c : Car) : (s.forgetRecord c).geo = s.geo := rfl
@[simp] theorem State.forgetRecord_spd (s : State) (c : Car) : (s.forgetRecord c).spd = s.spd := rfl
@[simp] theorem State.forgetRecord_tsr (s : State) (c : Car) : (s.forgetRecord c).tsr = s.tsr := rfl
@[simp] theorem State.forgetRecord_mon (s : State) (c : Car) : (s.forgetRecord c).mon = s.mon := rfl
@[simp] theorem State.forgetRecord_haul (s : State) (c : Car) : (s.forgetRecord c).haul = s.haul := rfl
@[simp] theorem State.forgetRecord_osb (s : State) (c : Car) : (s.forgetRecord c).osb = s.osb := rfl
@[simp] theorem State.forgetRecord_stp (s : State) (c : Car) : (s.forgetRecord c).stp = s.stp := rfl
@[simp] theorem State.forgetRecord_ent (s : State) (c : Car) : (s.forgetRecord c).ent = s.ent := rfl
@[simp] theorem State.forgetRecord_lnk (s : State) (c : Car) : (s.forgetRecord c).lnk = s.lnk := rfl
@[simp] theorem State.forgetRecord_choices (s : State) (c : Car) : (s.forgetRecord c).choices = s.choices := rfl
@[simp] theorem State.forgetRecord_pending (s : State) (c : Car) : (s.forgetRecord c).pending = s.pending := rfl

@[simp] theorem State.clearClaims_now (s : State) : s.clearClaims.now = s.now := rfl
@[simp] theorem State.clearClaims_params (s : State) : s.clearClaims.params = s.params := rfl
@[simp] theorem State.clearClaims_geo (s : State) : s.clearClaims.geo = s.geo := rfl
@[simp] theorem State.clearClaims_spd (s : State) : s.clearClaims.spd = s.spd := rfl
@[simp] theorem State.clearClaims_tsr (s : State) : s.clearClaims.tsr = s.tsr := rfl
@[simp] theorem State.clearClaims_mon (s : State) : s.clearClaims.mon = s.mon := rfl
@[simp] theorem State.clearClaims_haul (s : State) : s.clearClaims.haul = s.haul := rfl
@[simp] theorem State.clearClaims_osb (s : State) : s.clearClaims.osb = s.osb := rfl
@[simp] theorem State.clearClaims_stp (s : State) : s.clearClaims.stp = s.stp := rfl
@[simp] theorem State.clearClaims_lnk (s : State) : s.clearClaims.lnk = s.lnk := rfl
@[simp] theorem State.clearClaims_choices (s : State) : s.clearClaims.choices = s.choices := rfl
@[simp] theorem State.clearClaims_pending (s : State) : s.clearClaims.pending = s.pending := rfl

@[simp] theorem State.setPerm_now (s : State) (v : Nat) : (s.setPerm v).now = s.now := rfl
@[simp] theorem State.setPerm_params (s : State) (v : Nat) : (s.setPerm v).params = s.params := rfl
@[simp] theorem State.setPerm_geo (s : State) (v : Nat) : (s.setPerm v).geo = s.geo := rfl
@[simp] theorem State.setPerm_spd (s : State) (v : Nat) : (s.setPerm v).spd = s.spd := rfl
@[simp] theorem State.setPerm_tsr (s : State) (v : Nat) : (s.setPerm v).tsr = s.tsr := rfl
@[simp] theorem State.setPerm_mon (s : State) (v : Nat) : (s.setPerm v).mon = s.mon := rfl
@[simp] theorem State.setPerm_osb (s : State) (v : Nat) : (s.setPerm v).osb = s.osb := rfl
@[simp] theorem State.setPerm_stp (s : State) (v : Nat) : (s.setPerm v).stp = s.stp := rfl
@[simp] theorem State.setPerm_ent (s : State) (v : Nat) : (s.setPerm v).ent = s.ent := rfl
@[simp] theorem State.setPerm_adm (s : State) (v : Nat) : (s.setPerm v).adm = s.adm := rfl
@[simp] theorem State.setPerm_lnk (s : State) (v : Nat) : (s.setPerm v).lnk = s.lnk := rfl
@[simp] theorem State.setPerm_choices (s : State) (v : Nat) : (s.setPerm v).choices = s.choices := rfl
@[simp] theorem State.setPerm_pending (s : State) (v : Nat) : (s.setPerm v).pending = s.pending := rfl

@[simp] theorem State.publishSup_now (s : State) (v : Nat) : (s.publishSup v).now = s.now := rfl
@[simp] theorem State.publishSup_params (s : State) (v : Nat) : (s.publishSup v).params = s.params := rfl
@[simp] theorem State.publishSup_geo (s : State) (v : Nat) : (s.publishSup v).geo = s.geo := rfl
@[simp] theorem State.publishSup_spd (s : State) (v : Nat) : (s.publishSup v).spd = s.spd := rfl
@[simp] theorem State.publishSup_tsr (s : State) (v : Nat) : (s.publishSup v).tsr = s.tsr := rfl
@[simp] theorem State.publishSup_mon (s : State) (v : Nat) : (s.publishSup v).mon = s.mon := rfl
@[simp] theorem State.publishSup_stp (s : State) (v : Nat) : (s.publishSup v).stp = s.stp := rfl
@[simp] theorem State.publishSup_ent (s : State) (v : Nat) : (s.publishSup v).ent = s.ent := rfl
@[simp] theorem State.publishSup_adm (s : State) (v : Nat) : (s.publishSup v).adm = s.adm := rfl
@[simp] theorem State.publishSup_lnk (s : State) (v : Nat) : (s.publishSup v).lnk = s.lnk := rfl
@[simp] theorem State.publishSup_choices (s : State) (v : Nat) : (s.publishSup v).choices = s.choices := rfl
@[simp] theorem State.publishSup_pending (s : State) (v : Nat) : (s.publishSup v).pending = s.pending := rfl

@[simp] theorem State.setRun_now (s : State) (r : Option RunRecord) : (s.setRun r).now = s.now := rfl
@[simp] theorem State.setRun_params (s : State) (r : Option RunRecord) : (s.setRun r).params = s.params := rfl
@[simp] theorem State.setRun_geo (s : State) (r : Option RunRecord) : (s.setRun r).geo = s.geo := rfl
@[simp] theorem State.setRun_spd (s : State) (r : Option RunRecord) : (s.setRun r).spd = s.spd := rfl
@[simp] theorem State.setRun_tsr (s : State) (r : Option RunRecord) : (s.setRun r).tsr = s.tsr := rfl
@[simp] theorem State.setRun_mon (s : State) (r : Option RunRecord) : (s.setRun r).mon = s.mon := rfl
@[simp] theorem State.setRun_osb (s : State) (r : Option RunRecord) : (s.setRun r).osb = s.osb := rfl
@[simp] theorem State.setRun_stp (s : State) (r : Option RunRecord) : (s.setRun r).stp = s.stp := rfl
@[simp] theorem State.setRun_ent (s : State) (r : Option RunRecord) : (s.setRun r).ent = s.ent := rfl
@[simp] theorem State.setRun_adm (s : State) (r : Option RunRecord) : (s.setRun r).adm = s.adm := rfl
@[simp] theorem State.setRun_lnk (s : State) (r : Option RunRecord) : (s.setRun r).lnk = s.lnk := rfl
@[simp] theorem State.setRun_choices (s : State) (r : Option RunRecord) : (s.setRun r).choices = s.choices := rfl
@[simp] theorem State.setRun_pending (s : State) (r : Option RunRecord) : (s.setRun r).pending = s.pending := rfl

@[simp] theorem State.setHalt_now (s : State) (h : HaltCause) : (s.setHalt h).now = s.now := rfl
@[simp] theorem State.setHalt_params (s : State) (h : HaltCause) : (s.setHalt h).params = s.params := rfl
@[simp] theorem State.setHalt_geo (s : State) (h : HaltCause) : (s.setHalt h).geo = s.geo := rfl
@[simp] theorem State.setHalt_spd (s : State) (h : HaltCause) : (s.setHalt h).spd = s.spd := rfl
@[simp] theorem State.setHalt_tsr (s : State) (h : HaltCause) : (s.setHalt h).tsr = s.tsr := rfl
@[simp] theorem State.setHalt_mon (s : State) (h : HaltCause) : (s.setHalt h).mon = s.mon := rfl
@[simp] theorem State.setHalt_osb (s : State) (h : HaltCause) : (s.setHalt h).osb = s.osb := rfl
@[simp] theorem State.setHalt_stp (s : State) (h : HaltCause) : (s.setHalt h).stp = s.stp := rfl
@[simp] theorem State.setHalt_ent (s : State) (h : HaltCause) : (s.setHalt h).ent = s.ent := rfl
@[simp] theorem State.setHalt_adm (s : State) (h : HaltCause) : (s.setHalt h).adm = s.adm := rfl
@[simp] theorem State.setHalt_lnk (s : State) (h : HaltCause) : (s.setHalt h).lnk = s.lnk := rfl
@[simp] theorem State.setHalt_choices (s : State) (h : HaltCause) : (s.setHalt h).choices = s.choices := rfl
@[simp] theorem State.setHalt_pending (s : State) (h : HaltCause) : (s.setHalt h).pending = s.pending := rfl

@[simp] theorem State.stopTorque_now (s : State) : s.stopTorque.now = s.now := rfl
@[simp] theorem State.stopTorque_params (s : State) : s.stopTorque.params = s.params := rfl
@[simp] theorem State.stopTorque_geo (s : State) : s.stopTorque.geo = s.geo := rfl
@[simp] theorem State.stopTorque_spd (s : State) : s.stopTorque.spd = s.spd := rfl
@[simp] theorem State.stopTorque_tsr (s : State) : s.stopTorque.tsr = s.tsr := rfl
@[simp] theorem State.stopTorque_mon (s : State) : s.stopTorque.mon = s.mon := rfl
@[simp] theorem State.stopTorque_osb (s : State) : s.stopTorque.osb = s.osb := rfl
@[simp] theorem State.stopTorque_stp (s : State) : s.stopTorque.stp = s.stp := rfl
@[simp] theorem State.stopTorque_ent (s : State) : s.stopTorque.ent = s.ent := rfl
@[simp] theorem State.stopTorque_adm (s : State) : s.stopTorque.adm = s.adm := rfl
@[simp] theorem State.stopTorque_lnk (s : State) : s.stopTorque.lnk = s.lnk := rfl
@[simp] theorem State.stopTorque_choices (s : State) : s.stopTorque.choices = s.choices := rfl
@[simp] theorem State.stopTorque_pending (s : State) : s.stopTorque.pending = s.pending := rfl

@[simp] theorem State.dwellSpeeds_now (s : State) : s.dwellSpeeds.now = s.now := rfl
@[simp] theorem State.dwellSpeeds_params (s : State) : s.dwellSpeeds.params = s.params := rfl
@[simp] theorem State.dwellSpeeds_geo (s : State) : s.dwellSpeeds.geo = s.geo := rfl
@[simp] theorem State.dwellSpeeds_spd (s : State) : s.dwellSpeeds.spd = s.spd := rfl
@[simp] theorem State.dwellSpeeds_tsr (s : State) : s.dwellSpeeds.tsr = s.tsr := rfl
@[simp] theorem State.dwellSpeeds_mon (s : State) : s.dwellSpeeds.mon = s.mon := rfl
@[simp] theorem State.dwellSpeeds_stp (s : State) : s.dwellSpeeds.stp = s.stp := rfl
@[simp] theorem State.dwellSpeeds_ent (s : State) : s.dwellSpeeds.ent = s.ent := rfl
@[simp] theorem State.dwellSpeeds_adm (s : State) : s.dwellSpeeds.adm = s.adm := rfl
@[simp] theorem State.dwellSpeeds_lnk (s : State) : s.dwellSpeeds.lnk = s.lnk := rfl
@[simp] theorem State.dwellSpeeds_choices (s : State) : s.dwellSpeeds.choices = s.choices := rfl
@[simp] theorem State.dwellSpeeds_pending (s : State) : s.dwellSpeeds.pending = s.pending := rfl

@[simp] theorem State.latch_now (s : State) (c : TripCause) : (s.latch c).now = s.now := rfl
@[simp] theorem State.latch_params (s : State) (c : TripCause) : (s.latch c).params = s.params := rfl
@[simp] theorem State.latch_geo (s : State) (c : TripCause) : (s.latch c).geo = s.geo := rfl
@[simp] theorem State.latch_spd (s : State) (c : TripCause) : (s.latch c).spd = s.spd := rfl
@[simp] theorem State.latch_tsr (s : State) (c : TripCause) : (s.latch c).tsr = s.tsr := rfl
@[simp] theorem State.latch_mon (s : State) (c : TripCause) : (s.latch c).mon = s.mon := rfl
@[simp] theorem State.latch_haul (s : State) (c : TripCause) : (s.latch c).haul = s.haul := rfl
@[simp] theorem State.latch_stp (s : State) (c : TripCause) : (s.latch c).stp = s.stp := rfl
@[simp] theorem State.latch_ent (s : State) (c : TripCause) : (s.latch c).ent = s.ent := rfl
@[simp] theorem State.latch_adm (s : State) (c : TripCause) : (s.latch c).adm = s.adm := rfl
@[simp] theorem State.latch_lnk (s : State) (c : TripCause) : (s.latch c).lnk = s.lnk := rfl
@[simp] theorem State.latch_choices (s : State) (c : TripCause) : (s.latch c).choices = s.choices := rfl
@[simp] theorem State.latch_pending (s : State) (c : TripCause) : (s.latch c).pending = s.pending := rfl

@[simp] theorem State.beginWait_now (s : State) : s.beginWait.now = s.now := rfl
@[simp] theorem State.beginWait_params (s : State) : s.beginWait.params = s.params := rfl
@[simp] theorem State.beginWait_geo (s : State) : s.beginWait.geo = s.geo := rfl
@[simp] theorem State.beginWait_spd (s : State) : s.beginWait.spd = s.spd := rfl
@[simp] theorem State.beginWait_tsr (s : State) : s.beginWait.tsr = s.tsr := rfl
@[simp] theorem State.beginWait_mon (s : State) : s.beginWait.mon = s.mon := rfl
@[simp] theorem State.beginWait_haul (s : State) : s.beginWait.haul = s.haul := rfl
@[simp] theorem State.beginWait_stp (s : State) : s.beginWait.stp = s.stp := rfl
@[simp] theorem State.beginWait_ent (s : State) : s.beginWait.ent = s.ent := rfl
@[simp] theorem State.beginWait_adm (s : State) : s.beginWait.adm = s.adm := rfl
@[simp] theorem State.beginWait_lnk (s : State) : s.beginWait.lnk = s.lnk := rfl
@[simp] theorem State.beginWait_choices (s : State) : s.beginWait.choices = s.choices := rfl
@[simp] theorem State.beginWait_pending (s : State) : s.beginWait.pending = s.pending := rfl

@[simp] theorem State.addFurther_now (s : State) (c : TripCause) : (s.addFurther c).now = s.now := rfl
@[simp] theorem State.addFurther_params (s : State) (c : TripCause) : (s.addFurther c).params = s.params := rfl
@[simp] theorem State.addFurther_geo (s : State) (c : TripCause) : (s.addFurther c).geo = s.geo := rfl
@[simp] theorem State.addFurther_spd (s : State) (c : TripCause) : (s.addFurther c).spd = s.spd := rfl
@[simp] theorem State.addFurther_tsr (s : State) (c : TripCause) : (s.addFurther c).tsr = s.tsr := rfl
@[simp] theorem State.addFurther_mon (s : State) (c : TripCause) : (s.addFurther c).mon = s.mon := rfl
@[simp] theorem State.addFurther_haul (s : State) (c : TripCause) : (s.addFurther c).haul = s.haul := rfl
@[simp] theorem State.addFurther_stp (s : State) (c : TripCause) : (s.addFurther c).stp = s.stp := rfl
@[simp] theorem State.addFurther_ent (s : State) (c : TripCause) : (s.addFurther c).ent = s.ent := rfl
@[simp] theorem State.addFurther_adm (s : State) (c : TripCause) : (s.addFurther c).adm = s.adm := rfl
@[simp] theorem State.addFurther_choices (s : State) (c : TripCause) : (s.addFurther c).choices = s.choices := rfl
@[simp] theorem State.addFurther_pending (s : State) (c : TripCause) : (s.addFurther c).pending = s.pending := rfl

@[simp] theorem State.bumpChoice_now (s : State) : s.bumpChoice.now = s.now := rfl
@[simp] theorem State.bumpChoice_params (s : State) : s.bumpChoice.params = s.params := rfl
@[simp] theorem State.bumpChoice_geo (s : State) : s.bumpChoice.geo = s.geo := rfl
@[simp] theorem State.bumpChoice_spd (s : State) : s.bumpChoice.spd = s.spd := rfl
@[simp] theorem State.bumpChoice_tsr (s : State) : s.bumpChoice.tsr = s.tsr := rfl
@[simp] theorem State.bumpChoice_mon (s : State) : s.bumpChoice.mon = s.mon := rfl
@[simp] theorem State.bumpChoice_haul (s : State) : s.bumpChoice.haul = s.haul := rfl
@[simp] theorem State.bumpChoice_osb (s : State) : s.bumpChoice.osb = s.osb := rfl
@[simp] theorem State.bumpChoice_stp (s : State) : s.bumpChoice.stp = s.stp := rfl
@[simp] theorem State.bumpChoice_ent (s : State) : s.bumpChoice.ent = s.ent := rfl
@[simp] theorem State.bumpChoice_adm (s : State) : s.bumpChoice.adm = s.adm := rfl
@[simp] theorem State.bumpChoice_lnk (s : State) : s.bumpChoice.lnk = s.lnk := rfl
@[simp] theorem State.bumpChoice_pending (s : State) : s.bumpChoice.pending = s.pending := rfl

@[simp] theorem State.setEntry_now (s : State) (n : Nat) (x : Option Restriction) : (s.setEntry n x).now = s.now := rfl
@[simp] theorem State.setEntry_params (s : State) (n : Nat) (x : Option Restriction) : (s.setEntry n x).params = s.params := rfl
@[simp] theorem State.setEntry_geo (s : State) (n : Nat) (x : Option Restriction) : (s.setEntry n x).geo = s.geo := rfl
@[simp] theorem State.setEntry_spd (s : State) (n : Nat) (x : Option Restriction) : (s.setEntry n x).spd = s.spd := rfl
@[simp] theorem State.setEntry_mon (s : State) (n : Nat) (x : Option Restriction) : (s.setEntry n x).mon = s.mon := rfl
@[simp] theorem State.setEntry_haul (s : State) (n : Nat) (x : Option Restriction) : (s.setEntry n x).haul = s.haul := rfl
@[simp] theorem State.setEntry_osb (s : State) (n : Nat) (x : Option Restriction) : (s.setEntry n x).osb = s.osb := rfl
@[simp] theorem State.setEntry_stp (s : State) (n : Nat) (x : Option Restriction) : (s.setEntry n x).stp = s.stp := rfl
@[simp] theorem State.setEntry_ent (s : State) (n : Nat) (x : Option Restriction) : (s.setEntry n x).ent = s.ent := rfl
@[simp] theorem State.setEntry_adm (s : State) (n : Nat) (x : Option Restriction) : (s.setEntry n x).adm = s.adm := rfl
@[simp] theorem State.setEntry_lnk (s : State) (n : Nat) (x : Option Restriction) : (s.setEntry n x).lnk = s.lnk := rfl
@[simp] theorem State.setEntry_choices (s : State) (n : Nat) (x : Option Restriction) : (s.setEntry n x).choices = s.choices := rfl
@[simp] theorem State.setEntry_pending (s : State) (n : Nat) (x : Option Restriction) : (s.setEntry n x).pending = s.pending := rfl

@[simp] theorem State.setActive_now (s : State) (g : Geometry) : (s.setActive g).now = s.now := rfl
@[simp] theorem State.setActive_params (s : State) (g : Geometry) : (s.setActive g).params = s.params := rfl
@[simp] theorem State.setActive_spd (s : State) (g : Geometry) : (s.setActive g).spd = s.spd := rfl
@[simp] theorem State.setActive_tsr (s : State) (g : Geometry) : (s.setActive g).tsr = s.tsr := rfl
@[simp] theorem State.setActive_mon (s : State) (g : Geometry) : (s.setActive g).mon = s.mon := rfl
@[simp] theorem State.setActive_haul (s : State) (g : Geometry) : (s.setActive g).haul = s.haul := rfl
@[simp] theorem State.setActive_osb (s : State) (g : Geometry) : (s.setActive g).osb = s.osb := rfl
@[simp] theorem State.setActive_stp (s : State) (g : Geometry) : (s.setActive g).stp = s.stp := rfl
@[simp] theorem State.setActive_ent (s : State) (g : Geometry) : (s.setActive g).ent = s.ent := rfl
@[simp] theorem State.setActive_adm (s : State) (g : Geometry) : (s.setActive g).adm = s.adm := rfl
@[simp] theorem State.setActive_lnk (s : State) (g : Geometry) : (s.setActive g).lnk = s.lnk := rfl
@[simp] theorem State.setActive_choices (s : State) (g : Geometry) : (s.setActive g).choices = s.choices := rfl
@[simp] theorem State.setActive_pending (s : State) (g : Geometry) : (s.setActive g).pending = s.pending := rfl

@[simp] theorem State.setStaged_now (s : State) (g : Geometry) : (s.setStaged g).now = s.now := rfl
@[simp] theorem State.setStaged_params (s : State) (g : Geometry) : (s.setStaged g).params = s.params := rfl
@[simp] theorem State.setStaged_spd (s : State) (g : Geometry) : (s.setStaged g).spd = s.spd := rfl
@[simp] theorem State.setStaged_tsr (s : State) (g : Geometry) : (s.setStaged g).tsr = s.tsr := rfl
@[simp] theorem State.setStaged_mon (s : State) (g : Geometry) : (s.setStaged g).mon = s.mon := rfl
@[simp] theorem State.setStaged_haul (s : State) (g : Geometry) : (s.setStaged g).haul = s.haul := rfl
@[simp] theorem State.setStaged_osb (s : State) (g : Geometry) : (s.setStaged g).osb = s.osb := rfl
@[simp] theorem State.setStaged_stp (s : State) (g : Geometry) : (s.setStaged g).stp = s.stp := rfl
@[simp] theorem State.setStaged_ent (s : State) (g : Geometry) : (s.setStaged g).ent = s.ent := rfl
@[simp] theorem State.setStaged_adm (s : State) (g : Geometry) : (s.setStaged g).adm = s.adm := rfl
@[simp] theorem State.setStaged_lnk (s : State) (g : Geometry) : (s.setStaged g).lnk = s.lnk := rfl
@[simp] theorem State.setStaged_choices (s : State) (g : Geometry) : (s.setStaged g).choices = s.choices := rfl
@[simp] theorem State.setStaged_pending (s : State) (g : Geometry) : (s.setStaged g).pending = s.pending := rfl

@[simp] theorem State.unreference_now (s : State) (n : Nat) : (s.unreference n).now = s.now := rfl
@[simp] theorem State.unreference_params (s : State) (n : Nat) : (s.unreference n).params = s.params := rfl
@[simp] theorem State.unreference_spd (s : State) (n : Nat) : (s.unreference n).spd = s.spd := rfl
@[simp] theorem State.unreference_tsr (s : State) (n : Nat) : (s.unreference n).tsr = s.tsr := rfl
@[simp] theorem State.unreference_mon (s : State) (n : Nat) : (s.unreference n).mon = s.mon := rfl
@[simp] theorem State.unreference_haul (s : State) (n : Nat) : (s.unreference n).haul = s.haul := rfl
@[simp] theorem State.unreference_osb (s : State) (n : Nat) : (s.unreference n).osb = s.osb := rfl
@[simp] theorem State.unreference_stp (s : State) (n : Nat) : (s.unreference n).stp = s.stp := rfl
@[simp] theorem State.unreference_ent (s : State) (n : Nat) : (s.unreference n).ent = s.ent := rfl
@[simp] theorem State.unreference_adm (s : State) (n : Nat) : (s.unreference n).adm = s.adm := rfl
@[simp] theorem State.unreference_lnk (s : State) (n : Nat) : (s.unreference n).lnk = s.lnk := rfl
@[simp] theorem State.unreference_choices (s : State) (n : Nat) : (s.unreference n).choices = s.choices := rfl
@[simp] theorem State.unreference_pending (s : State) (n : Nat) : (s.unreference n).pending = s.pending := rfl

@[simp] theorem State.fixPosition_now (s : State) (n : Nat) : (s.fixPosition n).now = s.now := rfl
@[simp] theorem State.fixPosition_params (s : State) (n : Nat) : (s.fixPosition n).params = s.params := rfl
@[simp] theorem State.fixPosition_spd (s : State) (n : Nat) : (s.fixPosition n).spd = s.spd := rfl
@[simp] theorem State.fixPosition_tsr (s : State) (n : Nat) : (s.fixPosition n).tsr = s.tsr := rfl
@[simp] theorem State.fixPosition_mon (s : State) (n : Nat) : (s.fixPosition n).mon = s.mon := rfl
@[simp] theorem State.fixPosition_haul (s : State) (n : Nat) : (s.fixPosition n).haul = s.haul := rfl
@[simp] theorem State.fixPosition_osb (s : State) (n : Nat) : (s.fixPosition n).osb = s.osb := rfl
@[simp] theorem State.fixPosition_stp (s : State) (n : Nat) : (s.fixPosition n).stp = s.stp := rfl
@[simp] theorem State.fixPosition_ent (s : State) (n : Nat) : (s.fixPosition n).ent = s.ent := rfl
@[simp] theorem State.fixPosition_adm (s : State) (n : Nat) : (s.fixPosition n).adm = s.adm := rfl
@[simp] theorem State.fixPosition_lnk (s : State) (n : Nat) : (s.fixPosition n).lnk = s.lnk := rfl
@[simp] theorem State.fixPosition_choices (s : State) (n : Nat) : (s.fixPosition n).choices = s.choices := rfl
@[simp] theorem State.fixPosition_pending (s : State) (n : Nat) : (s.fixPosition n).pending = s.pending := rfl

@[simp] theorem State.setDatum_now (s : State) (k : Nat) (b : Bool) : (s.setDatum k b).now = s.now := rfl
@[simp] theorem State.setDatum_params (s : State) (k : Nat) (b : Bool) : (s.setDatum k b).params = s.params := rfl
@[simp] theorem State.setDatum_spd (s : State) (k : Nat) (b : Bool) : (s.setDatum k b).spd = s.spd := rfl
@[simp] theorem State.setDatum_tsr (s : State) (k : Nat) (b : Bool) : (s.setDatum k b).tsr = s.tsr := rfl
@[simp] theorem State.setDatum_mon (s : State) (k : Nat) (b : Bool) : (s.setDatum k b).mon = s.mon := rfl
@[simp] theorem State.setDatum_haul (s : State) (k : Nat) (b : Bool) : (s.setDatum k b).haul = s.haul := rfl
@[simp] theorem State.setDatum_osb (s : State) (k : Nat) (b : Bool) : (s.setDatum k b).osb = s.osb := rfl
@[simp] theorem State.setDatum_stp (s : State) (k : Nat) (b : Bool) : (s.setDatum k b).stp = s.stp := rfl
@[simp] theorem State.setDatum_ent (s : State) (k : Nat) (b : Bool) : (s.setDatum k b).ent = s.ent := rfl
@[simp] theorem State.setDatum_adm (s : State) (k : Nat) (b : Bool) : (s.setDatum k b).adm = s.adm := rfl
@[simp] theorem State.setDatum_lnk (s : State) (k : Nat) (b : Bool) : (s.setDatum k b).lnk = s.lnk := rfl
@[simp] theorem State.setDatum_choices (s : State) (k : Nat) (b : Bool) : (s.setDatum k b).choices = s.choices := rfl
@[simp] theorem State.setDatum_pending (s : State) (k : Nat) (b : Bool) : (s.setDatum k b).pending = s.pending := rfl

@[simp] theorem State.countRope_now (s : State) (b : Bool) : (s.countRope b).now = s.now := rfl
@[simp] theorem State.countRope_params (s : State) (b : Bool) : (s.countRope b).params = s.params := rfl
@[simp] theorem State.countRope_spd (s : State) (b : Bool) : (s.countRope b).spd = s.spd := rfl
@[simp] theorem State.countRope_tsr (s : State) (b : Bool) : (s.countRope b).tsr = s.tsr := rfl
@[simp] theorem State.countRope_mon (s : State) (b : Bool) : (s.countRope b).mon = s.mon := rfl
@[simp] theorem State.countRope_haul (s : State) (b : Bool) : (s.countRope b).haul = s.haul := rfl
@[simp] theorem State.countRope_osb (s : State) (b : Bool) : (s.countRope b).osb = s.osb := rfl
@[simp] theorem State.countRope_stp (s : State) (b : Bool) : (s.countRope b).stp = s.stp := rfl
@[simp] theorem State.countRope_ent (s : State) (b : Bool) : (s.countRope b).ent = s.ent := rfl
@[simp] theorem State.countRope_adm (s : State) (b : Bool) : (s.countRope b).adm = s.adm := rfl
@[simp] theorem State.countRope_lnk (s : State) (b : Bool) : (s.countRope b).lnk = s.lnk := rfl
@[simp] theorem State.countRope_choices (s : State) (b : Bool) : (s.countRope b).choices = s.choices := rfl
@[simp] theorem State.countRope_pending (s : State) (b : Bool) : (s.countRope b).pending = s.pending := rfl

@[simp] theorem State.respan_now (s : State) (n : Nat) : (s.respan n).now = s.now := rfl
@[simp] theorem State.respan_params (s : State) (n : Nat) : (s.respan n).params = s.params := rfl
@[simp] theorem State.respan_geo (s : State) (n : Nat) : (s.respan n).geo = s.geo := rfl
@[simp] theorem State.respan_spd (s : State) (n : Nat) : (s.respan n).spd = s.spd := rfl
@[simp] theorem State.respan_mon (s : State) (n : Nat) : (s.respan n).mon = s.mon := rfl
@[simp] theorem State.respan_haul (s : State) (n : Nat) : (s.respan n).haul = s.haul := rfl
@[simp] theorem State.respan_osb (s : State) (n : Nat) : (s.respan n).osb = s.osb := rfl
@[simp] theorem State.respan_stp (s : State) (n : Nat) : (s.respan n).stp = s.stp := rfl
@[simp] theorem State.respan_ent (s : State) (n : Nat) : (s.respan n).ent = s.ent := rfl
@[simp] theorem State.respan_adm (s : State) (n : Nat) : (s.respan n).adm = s.adm := rfl
@[simp] theorem State.respan_lnk (s : State) (n : Nat) : (s.respan n).lnk = s.lnk := rfl
@[simp] theorem State.respan_choices (s : State) (n : Nat) : (s.respan n).choices = s.choices := rfl
@[simp] theorem State.respan_pending (s : State) (n : Nat) : (s.respan n).pending = s.pending := rfl

@[simp] theorem State.pendingPass_now (s : State) : s.pendingPass.now = s.now := rfl
@[simp] theorem State.pendingPass_params (s : State) : s.pendingPass.params = s.params := rfl
@[simp] theorem State.pendingPass_geo (s : State) : s.pendingPass.geo = s.geo := rfl
@[simp] theorem State.pendingPass_spd (s : State) : s.pendingPass.spd = s.spd := rfl
@[simp] theorem State.pendingPass_mon (s : State) : s.pendingPass.mon = s.mon := rfl
@[simp] theorem State.pendingPass_haul (s : State) : s.pendingPass.haul = s.haul := rfl
@[simp] theorem State.pendingPass_osb (s : State) : s.pendingPass.osb = s.osb := rfl
@[simp] theorem State.pendingPass_stp (s : State) : s.pendingPass.stp = s.stp := rfl
@[simp] theorem State.pendingPass_ent (s : State) : s.pendingPass.ent = s.ent := rfl
@[simp] theorem State.pendingPass_adm (s : State) : s.pendingPass.adm = s.adm := rfl
@[simp] theorem State.pendingPass_lnk (s : State) : s.pendingPass.lnk = s.lnk := rfl
@[simp] theorem State.pendingPass_choices (s : State) : s.pendingPass.choices = s.choices := rfl
@[simp] theorem State.pendingPass_pending (s : State) : s.pendingPass.pending = s.pending := rfl

@[simp] theorem State.setBuffer_now (s : State) (rc : ResultCode) (c : Byte) : (s.setBuffer rc c).now = s.now := rfl
@[simp] theorem State.setBuffer_params (s : State) (rc : ResultCode) (c : Byte) : (s.setBuffer rc c).params = s.params := rfl
@[simp] theorem State.setBuffer_geo (s : State) (rc : ResultCode) (c : Byte) : (s.setBuffer rc c).geo = s.geo := rfl
@[simp] theorem State.setBuffer_spd (s : State) (rc : ResultCode) (c : Byte) : (s.setBuffer rc c).spd = s.spd := rfl
@[simp] theorem State.setBuffer_tsr (s : State) (rc : ResultCode) (c : Byte) : (s.setBuffer rc c).tsr = s.tsr := rfl
@[simp] theorem State.setBuffer_mon (s : State) (rc : ResultCode) (c : Byte) : (s.setBuffer rc c).mon = s.mon := rfl
@[simp] theorem State.setBuffer_haul (s : State) (rc : ResultCode) (c : Byte) : (s.setBuffer rc c).haul = s.haul := rfl
@[simp] theorem State.setBuffer_osb (s : State) (rc : ResultCode) (c : Byte) : (s.setBuffer rc c).osb = s.osb := rfl
@[simp] theorem State.setBuffer_stp (s : State) (rc : ResultCode) (c : Byte) : (s.setBuffer rc c).stp = s.stp := rfl
@[simp] theorem State.setBuffer_ent (s : State) (rc : ResultCode) (c : Byte) : (s.setBuffer rc c).ent = s.ent := rfl
@[simp] theorem State.setBuffer_adm (s : State) (rc : ResultCode) (c : Byte) : (s.setBuffer rc c).adm = s.adm := rfl
@[simp] theorem State.setBuffer_choices (s : State) (rc : ResultCode) (c : Byte) : (s.setBuffer rc c).choices = s.choices := rfl
@[simp] theorem State.setBuffer_pending (s : State) (rc : ResultCode) (c : Byte) : (s.setBuffer rc c).pending = s.pending := rfl

@[simp] theorem State.setBusy_now (s : State) (c : Byte) : (s.setBusy c).now = s.now := rfl
@[simp] theorem State.setBusy_params (s : State) (c : Byte) : (s.setBusy c).params = s.params := rfl
@[simp] theorem State.setBusy_geo (s : State) (c : Byte) : (s.setBusy c).geo = s.geo := rfl
@[simp] theorem State.setBusy_spd (s : State) (c : Byte) : (s.setBusy c).spd = s.spd := rfl
@[simp] theorem State.setBusy_tsr (s : State) (c : Byte) : (s.setBusy c).tsr = s.tsr := rfl
@[simp] theorem State.setBusy_mon (s : State) (c : Byte) : (s.setBusy c).mon = s.mon := rfl
@[simp] theorem State.setBusy_haul (s : State) (c : Byte) : (s.setBusy c).haul = s.haul := rfl
@[simp] theorem State.setBusy_osb (s : State) (c : Byte) : (s.setBusy c).osb = s.osb := rfl
@[simp] theorem State.setBusy_stp (s : State) (c : Byte) : (s.setBusy c).stp = s.stp := rfl
@[simp] theorem State.setBusy_ent (s : State) (c : Byte) : (s.setBusy c).ent = s.ent := rfl
@[simp] theorem State.setBusy_adm (s : State) (c : Byte) : (s.setBusy c).adm = s.adm := rfl
@[simp] theorem State.setBusy_choices (s : State) (c : Byte) : (s.setBusy c).choices = s.choices := rfl
@[simp] theorem State.setBusy_pending (s : State) (c : Byte) : (s.setBusy c).pending = s.pending := rfl

@[simp] theorem State.setAttention_now (s : State) (m : BitVec 16) : (s.setAttention m).now = s.now := rfl
@[simp] theorem State.setAttention_params (s : State) (m : BitVec 16) : (s.setAttention m).params = s.params := rfl
@[simp] theorem State.setAttention_geo (s : State) (m : BitVec 16) : (s.setAttention m).geo = s.geo := rfl
@[simp] theorem State.setAttention_spd (s : State) (m : BitVec 16) : (s.setAttention m).spd = s.spd := rfl
@[simp] theorem State.setAttention_tsr (s : State) (m : BitVec 16) : (s.setAttention m).tsr = s.tsr := rfl
@[simp] theorem State.setAttention_mon (s : State) (m : BitVec 16) : (s.setAttention m).mon = s.mon := rfl
@[simp] theorem State.setAttention_haul (s : State) (m : BitVec 16) : (s.setAttention m).haul = s.haul := rfl
@[simp] theorem State.setAttention_osb (s : State) (m : BitVec 16) : (s.setAttention m).osb = s.osb := rfl
@[simp] theorem State.setAttention_stp (s : State) (m : BitVec 16) : (s.setAttention m).stp = s.stp := rfl
@[simp] theorem State.setAttention_ent (s : State) (m : BitVec 16) : (s.setAttention m).ent = s.ent := rfl
@[simp] theorem State.setAttention_adm (s : State) (m : BitVec 16) : (s.setAttention m).adm = s.adm := rfl
@[simp] theorem State.setAttention_choices (s : State) (m : BitVec 16) : (s.setAttention m).choices = s.choices := rfl
@[simp] theorem State.setAttention_pending (s : State) (m : BitVec 16) : (s.setAttention m).pending = s.pending := rfl

@[simp] theorem State.resetHaul_now (s : State) : s.resetHaul.now = s.now := rfl
@[simp] theorem State.resetHaul_params (s : State) : s.resetHaul.params = s.params := rfl
@[simp] theorem State.resetHaul_geo (s : State) : s.resetHaul.geo = s.geo := rfl
@[simp] theorem State.resetHaul_spd (s : State) : s.resetHaul.spd = s.spd := rfl
@[simp] theorem State.resetHaul_tsr (s : State) : s.resetHaul.tsr = s.tsr := rfl
@[simp] theorem State.resetHaul_mon (s : State) : s.resetHaul.mon = s.mon := rfl
@[simp] theorem State.resetHaul_osb (s : State) : s.resetHaul.osb = s.osb := rfl
@[simp] theorem State.resetHaul_stp (s : State) : s.resetHaul.stp = s.stp := rfl
@[simp] theorem State.resetHaul_ent (s : State) : s.resetHaul.ent = s.ent := rfl
@[simp] theorem State.resetHaul_adm (s : State) : s.resetHaul.adm = s.adm := rfl
@[simp] theorem State.resetHaul_lnk (s : State) : s.resetHaul.lnk = s.lnk := rfl
@[simp] theorem State.resetHaul_choices (s : State) : s.resetHaul.choices = s.choices := rfl
@[simp] theorem State.resetHaul_pending (s : State) : s.resetHaul.pending = s.pending := rfl

@[simp] theorem State.resetOsb_now (s : State) : s.resetOsb.now = s.now := rfl
@[simp] theorem State.resetOsb_params (s : State) : s.resetOsb.params = s.params := rfl
@[simp] theorem State.resetOsb_geo (s : State) : s.resetOsb.geo = s.geo := rfl
@[simp] theorem State.resetOsb_spd (s : State) : s.resetOsb.spd = s.spd := rfl
@[simp] theorem State.resetOsb_tsr (s : State) : s.resetOsb.tsr = s.tsr := rfl
@[simp] theorem State.resetOsb_mon (s : State) : s.resetOsb.mon = s.mon := rfl
@[simp] theorem State.resetOsb_haul (s : State) : s.resetOsb.haul = s.haul := rfl
@[simp] theorem State.resetOsb_stp (s : State) : s.resetOsb.stp = s.stp := rfl
@[simp] theorem State.resetOsb_ent (s : State) : s.resetOsb.ent = s.ent := rfl
@[simp] theorem State.resetOsb_adm (s : State) : s.resetOsb.adm = s.adm := rfl
@[simp] theorem State.resetOsb_lnk (s : State) : s.resetOsb.lnk = s.lnk := rfl
@[simp] theorem State.resetOsb_choices (s : State) : s.resetOsb.choices = s.choices := rfl
@[simp] theorem State.resetOsb_pending (s : State) : s.resetOsb.pending = s.pending := rfl

@[simp] theorem State.resetStp_now (s : State) : s.resetStp.now = s.now := rfl
@[simp] theorem State.resetStp_params (s : State) : s.resetStp.params = s.params := rfl
@[simp] theorem State.resetStp_geo (s : State) : s.resetStp.geo = s.geo := rfl
@[simp] theorem State.resetStp_spd (s : State) : s.resetStp.spd = s.spd := rfl
@[simp] theorem State.resetStp_tsr (s : State) : s.resetStp.tsr = s.tsr := rfl
@[simp] theorem State.resetStp_mon (s : State) : s.resetStp.mon = s.mon := rfl
@[simp] theorem State.resetStp_haul (s : State) : s.resetStp.haul = s.haul := rfl
@[simp] theorem State.resetStp_osb (s : State) : s.resetStp.osb = s.osb := rfl
@[simp] theorem State.resetStp_ent (s : State) : s.resetStp.ent = s.ent := rfl
@[simp] theorem State.resetStp_adm (s : State) : s.resetStp.adm = s.adm := rfl
@[simp] theorem State.resetStp_lnk (s : State) : s.resetStp.lnk = s.lnk := rfl
@[simp] theorem State.resetStp_choices (s : State) : s.resetStp.choices = s.choices := rfl
@[simp] theorem State.resetStp_pending (s : State) : s.resetStp.pending = s.pending := rfl

@[simp] theorem State.endAwait_now (s : State) : s.endAwait.now = s.now := rfl
@[simp] theorem State.endAwait_params (s : State) : s.endAwait.params = s.params := rfl
@[simp] theorem State.endAwait_geo (s : State) : s.endAwait.geo = s.geo := rfl
@[simp] theorem State.endAwait_spd (s : State) : s.endAwait.spd = s.spd := rfl
@[simp] theorem State.endAwait_tsr (s : State) : s.endAwait.tsr = s.tsr := rfl
@[simp] theorem State.endAwait_mon (s : State) : s.endAwait.mon = s.mon := rfl
@[simp] theorem State.endAwait_haul (s : State) : s.endAwait.haul = s.haul := rfl
@[simp] theorem State.endAwait_osb (s : State) : s.endAwait.osb = s.osb := rfl
@[simp] theorem State.endAwait_stp (s : State) : s.endAwait.stp = s.stp := rfl
@[simp] theorem State.endAwait_ent (s : State) : s.endAwait.ent = s.ent := rfl
@[simp] theorem State.endAwait_lnk (s : State) : s.endAwait.lnk = s.lnk := rfl
@[simp] theorem State.endAwait_choices (s : State) : s.endAwait.choices = s.choices := rfl
@[simp] theorem State.endAwait_pending (s : State) : s.endAwait.pending = s.pending := rfl
@[simp] theorem State.endSlot_now (s : State) : s.endSlot.now = s.now := rfl
@[simp] theorem State.endSlot_params (s : State) : s.endSlot.params = s.params := rfl
@[simp] theorem State.endSlot_geo (s : State) : s.endSlot.geo = s.geo := rfl
@[simp] theorem State.endSlot_spd (s : State) : s.endSlot.spd = s.spd := rfl
@[simp] theorem State.endSlot_tsr (s : State) : s.endSlot.tsr = s.tsr := rfl
@[simp] theorem State.endSlot_mon (s : State) : s.endSlot.mon = s.mon := rfl
@[simp] theorem State.endSlot_haul (s : State) : s.endSlot.haul = s.haul := rfl
@[simp] theorem State.endSlot_osb (s : State) : s.endSlot.osb = s.osb := rfl
@[simp] theorem State.endSlot_stp (s : State) : s.endSlot.stp = s.stp := rfl
@[simp] theorem State.endSlot_ent (s : State) : s.endSlot.ent = s.ent := rfl
@[simp] theorem State.endSlot_lnk (s : State) : s.endSlot.lnk = s.lnk := rfl
@[simp] theorem State.endSlot_choices (s : State) : s.endSlot.choices = s.choices := rfl
@[simp] theorem State.endSlot_pending (s : State) : s.endSlot.pending = s.pending := rfl
@[simp] theorem State.endSlot_slotPolls (s : State) : s.endSlot.adm.slotPolls = false := rfl
@[simp] theorem State.endSlot_pollCount (s : State) : s.endSlot.adm.pollCount = s.adm.countAfterSlot := rfl
@[simp] theorem State.endSlot_gates (s : State) : s.endSlot.adm.gates = s.adm.gates := rfl
@[simp] theorem State.endSlot_claims (s : State) : s.endSlot.adm.claims = s.adm.claims := rfl
@[simp] theorem State.endSlot_boarding (s : State) : s.endSlot.adm.boarding = s.adm.boarding := rfl

@[simp] theorem State.clearLatch_now (s : State) : s.clearLatch.now = s.now := rfl
@[simp] theorem State.clearLatch_params (s : State) : s.clearLatch.params = s.params := rfl
@[simp] theorem State.clearLatch_geo (s : State) : s.clearLatch.geo = s.geo := rfl
@[simp] theorem State.clearLatch_spd (s : State) : s.clearLatch.spd = s.spd := rfl
@[simp] theorem State.clearLatch_tsr (s : State) : s.clearLatch.tsr = s.tsr := rfl
@[simp] theorem State.clearLatch_mon (s : State) : s.clearLatch.mon = s.mon := rfl
@[simp] theorem State.clearLatch_haul (s : State) : s.clearLatch.haul = s.haul := rfl
@[simp] theorem State.clearLatch_stp (s : State) : s.clearLatch.stp = s.stp := rfl
@[simp] theorem State.clearLatch_ent (s : State) : s.clearLatch.ent = s.ent := rfl
@[simp] theorem State.clearLatch_adm (s : State) : s.clearLatch.adm = s.adm := rfl
@[simp] theorem State.clearLatch_lnk (s : State) : s.clearLatch.lnk = s.lnk := rfl
@[simp] theorem State.clearLatch_choices (s : State) : s.clearLatch.choices = s.choices := rfl
@[simp] theorem State.clearLatch_pending (s : State) : s.clearLatch.pending = s.pending := rfl

@[simp] theorem State.tick_params (s : State) : s.tick.params = s.params := rfl
@[simp] theorem State.tick_geo (s : State) : s.tick.geo = s.geo := rfl
@[simp] theorem State.tick_spd (s : State) : s.tick.spd = s.spd := rfl
@[simp] theorem State.tick_tsr (s : State) : s.tick.tsr = s.tsr := rfl
@[simp] theorem State.tick_mon (s : State) : s.tick.mon = s.mon := rfl
@[simp] theorem State.tick_haul (s : State) : s.tick.haul = s.haul := rfl
@[simp] theorem State.tick_osb (s : State) : s.tick.osb = s.osb := rfl
@[simp] theorem State.tick_stp (s : State) : s.tick.stp = s.stp := rfl
@[simp] theorem State.tick_ent (s : State) : s.tick.ent = s.ent := rfl
@[simp] theorem State.tick_adm (s : State) : s.tick.adm = s.adm := rfl
@[simp] theorem State.tick_lnk (s : State) : s.tick.lnk = s.lnk := rfl
@[simp] theorem State.tick_choices (s : State) : s.tick.choices = s.choices := rfl
@[simp] theorem State.tick_pending (s : State) : s.tick.pending = s.pending := rfl

@[simp] theorem State.push_now (s : State) (i : Instr) : (s.push i).now = s.now := rfl
@[simp] theorem State.push_params (s : State) (i : Instr) : (s.push i).params = s.params := rfl
@[simp] theorem State.push_geo (s : State) (i : Instr) : (s.push i).geo = s.geo := rfl
@[simp] theorem State.push_spd (s : State) (i : Instr) : (s.push i).spd = s.spd := rfl
@[simp] theorem State.push_tsr (s : State) (i : Instr) : (s.push i).tsr = s.tsr := rfl
@[simp] theorem State.push_mon (s : State) (i : Instr) : (s.push i).mon = s.mon := rfl
@[simp] theorem State.push_haul (s : State) (i : Instr) : (s.push i).haul = s.haul := rfl
@[simp] theorem State.push_osb (s : State) (i : Instr) : (s.push i).osb = s.osb := rfl
@[simp] theorem State.push_stp (s : State) (i : Instr) : (s.push i).stp = s.stp := rfl
@[simp] theorem State.push_ent (s : State) (i : Instr) : (s.push i).ent = s.ent := rfl
@[simp] theorem State.push_adm (s : State) (i : Instr) : (s.push i).adm = s.adm := rfl
@[simp] theorem State.push_lnk (s : State) (i : Instr) : (s.push i).lnk = s.lnk := rfl
@[simp] theorem State.push_choices (s : State) (i : Instr) : (s.push i).choices = s.choices := rfl

@[simp] theorem State.setLine_now (s : State) (l : LineState) : (s.setLine l).now = s.now := by cases l <;> rfl
@[simp] theorem State.setLine_params (s : State) (l : LineState) : (s.setLine l).params = s.params := by cases l <;> rfl
@[simp] theorem State.setLine_geo (s : State) (l : LineState) : (s.setLine l).geo = s.geo := by cases l <;> rfl
@[simp] theorem State.setLine_tsr (s : State) (l : LineState) : (s.setLine l).tsr = s.tsr := by cases l <;> rfl
@[simp] theorem State.setLine_mon (s : State) (l : LineState) : (s.setLine l).mon = s.mon := by cases l <;> rfl
@[simp] theorem State.setLine_ent (s : State) (l : LineState) : (s.setLine l).ent = s.ent := by cases l <;> rfl
@[simp] theorem State.setLine_adm (s : State) (l : LineState) : (s.setLine l).adm = s.adm := by cases l <;> rfl
@[simp] theorem State.setLine_choices (s : State) (l : LineState) : (s.setLine l).choices = s.choices := by cases l <;> rfl
@[simp] theorem State.setLine_pending (s : State) (l : LineState) : (s.setLine l).pending = s.pending := by cases l <;> rfl
@[simp] theorem State.setCar_now (s : State) (c : Car) (x : CarState) : (s.setCar c x).now = s.now := by cases c <;> rfl
@[simp] theorem State.setCar_params (s : State) (c : Car) (x : CarState) : (s.setCar c x).params = s.params := by cases c <;> rfl
@[simp] theorem State.setCar_geo (s : State) (c : Car) (x : CarState) : (s.setCar c x).geo = s.geo := by cases c <;> rfl
@[simp] theorem State.setCar_spd (s : State) (c : Car) (x : CarState) : (s.setCar c x).spd = s.spd := by cases c <;> rfl
@[simp] theorem State.setCar_tsr (s : State) (c : Car) (x : CarState) : (s.setCar c x).tsr = s.tsr := by cases c <;> rfl
@[simp] theorem State.setCar_mon (s : State) (c : Car) (x : CarState) : (s.setCar c x).mon = s.mon := by cases c <;> rfl
@[simp] theorem State.setCar_haul (s : State) (c : Car) (x : CarState) : (s.setCar c x).haul = s.haul := by cases c <;> rfl
@[simp] theorem State.setCar_osb (s : State) (c : Car) (x : CarState) : (s.setCar c x).osb = s.osb := by cases c <;> rfl
@[simp] theorem State.setCar_ent (s : State) (c : Car) (x : CarState) : (s.setCar c x).ent = s.ent := by cases c <;> rfl
@[simp] theorem State.setCar_adm (s : State) (c : Car) (x : CarState) : (s.setCar c x).adm = s.adm := by cases c <;> rfl
@[simp] theorem State.setCar_lnk (s : State) (c : Car) (x : CarState) : (s.setCar c x).lnk = s.lnk := by cases c <;> rfl
@[simp] theorem State.setCar_choices (s : State) (c : Car) (x : CarState) : (s.setCar c x).choices = s.choices := by cases c <;> rfl
@[simp] theorem State.setCar_pending (s : State) (c : Car) (x : CarState) : (s.setCar c x).pending = s.pending := by cases c <;> rfl
@[simp] theorem State.setRecord_now (s : State) (c : Car) (x : Option StopRecord) : (s.setRecord c x).now = s.now := by cases c <;> rfl
@[simp] theorem State.setRecord_params (s : State) (c : Car) (x : Option StopRecord) : (s.setRecord c x).params = s.params := by cases c <;> rfl
@[simp] theorem State.setRecord_geo (s : State) (c : Car) (x : Option StopRecord) : (s.setRecord c x).geo = s.geo := by cases c <;> rfl
@[simp] theorem State.setRecord_spd (s : State) (c : Car) (x : Option StopRecord) : (s.setRecord c x).spd = s.spd := by cases c <;> rfl
@[simp] theorem State.setRecord_tsr (s : State) (c : Car) (x : Option StopRecord) : (s.setRecord c x).tsr = s.tsr := by cases c <;> rfl
@[simp] theorem State.setRecord_mon (s : State) (c : Car) (x : Option StopRecord) : (s.setRecord c x).mon = s.mon := by cases c <;> rfl
@[simp] theorem State.setRecord_haul (s : State) (c : Car) (x : Option StopRecord) : (s.setRecord c x).haul = s.haul := by cases c <;> rfl
@[simp] theorem State.setRecord_osb (s : State) (c : Car) (x : Option StopRecord) : (s.setRecord c x).osb = s.osb := by cases c <;> rfl
@[simp] theorem State.setRecord_ent (s : State) (c : Car) (x : Option StopRecord) : (s.setRecord c x).ent = s.ent := by cases c <;> rfl
@[simp] theorem State.setRecord_adm (s : State) (c : Car) (x : Option StopRecord) : (s.setRecord c x).adm = s.adm := by cases c <;> rfl
@[simp] theorem State.setRecord_lnk (s : State) (c : Car) (x : Option StopRecord) : (s.setRecord c x).lnk = s.lnk := by cases c <;> rfl
@[simp] theorem State.setRecord_choices (s : State) (c : Car) (x : Option StopRecord) : (s.setRecord c x).choices = s.choices := by cases c <;> rfl
@[simp] theorem State.setRecord_pending (s : State) (c : Car) (x : Option StopRecord) : (s.setRecord c x).pending = s.pending := by cases c <;> rfl
@[simp] theorem State.newRecord_now (s : State) (c : Car) (k : Nat) : (s.newRecord c k).now = s.now := by cases c <;> rfl
@[simp] theorem State.newRecord_params (s : State) (c : Car) (k : Nat) : (s.newRecord c k).params = s.params := by cases c <;> rfl
@[simp] theorem State.newRecord_geo (s : State) (c : Car) (k : Nat) : (s.newRecord c k).geo = s.geo := by cases c <;> rfl
@[simp] theorem State.newRecord_spd (s : State) (c : Car) (k : Nat) : (s.newRecord c k).spd = s.spd := by cases c <;> rfl
@[simp] theorem State.newRecord_tsr (s : State) (c : Car) (k : Nat) : (s.newRecord c k).tsr = s.tsr := by cases c <;> rfl
@[simp] theorem State.newRecord_mon (s : State) (c : Car) (k : Nat) : (s.newRecord c k).mon = s.mon := by cases c <;> rfl
@[simp] theorem State.newRecord_haul (s : State) (c : Car) (k : Nat) : (s.newRecord c k).haul = s.haul := by cases c <;> rfl
@[simp] theorem State.newRecord_osb (s : State) (c : Car) (k : Nat) : (s.newRecord c k).osb = s.osb := by cases c <;> rfl
@[simp] theorem State.newRecord_ent (s : State) (c : Car) (k : Nat) : (s.newRecord c k).ent = s.ent := by cases c <;> rfl
@[simp] theorem State.newRecord_adm (s : State) (c : Car) (k : Nat) : (s.newRecord c k).adm = s.adm := by cases c <;> rfl
@[simp] theorem State.newRecord_lnk (s : State) (c : Car) (k : Nat) : (s.newRecord c k).lnk = s.lnk := by cases c <;> rfl
@[simp] theorem State.newRecord_choices (s : State) (c : Car) (k : Nat) : (s.newRecord c k).choices = s.choices := by cases c <;> rfl
@[simp] theorem State.newRecord_pending (s : State) (c : Car) (k : Nat) : (s.newRecord c k).pending = s.pending := by cases c <;> rfl
@[simp] theorem State.setLoad_now (s : State) (c : Car) (n : Nat) : (s.setLoad c n).now = s.now := by cases c <;> rfl
@[simp] theorem State.setLoad_params (s : State) (c : Car) (n : Nat) : (s.setLoad c n).params = s.params := by cases c <;> rfl
@[simp] theorem State.setLoad_geo (s : State) (c : Car) (n : Nat) : (s.setLoad c n).geo = s.geo := by cases c <;> rfl
@[simp] theorem State.setLoad_spd (s : State) (c : Car) (n : Nat) : (s.setLoad c n).spd = s.spd := by cases c <;> rfl
@[simp] theorem State.setLoad_tsr (s : State) (c : Car) (n : Nat) : (s.setLoad c n).tsr = s.tsr := by cases c <;> rfl
@[simp] theorem State.setLoad_mon (s : State) (c : Car) (n : Nat) : (s.setLoad c n).mon = s.mon := by cases c <;> rfl
@[simp] theorem State.setLoad_osb (s : State) (c : Car) (n : Nat) : (s.setLoad c n).osb = s.osb := by cases c <;> rfl
@[simp] theorem State.setLoad_stp (s : State) (c : Car) (n : Nat) : (s.setLoad c n).stp = s.stp := by cases c <;> rfl
@[simp] theorem State.setLoad_ent (s : State) (c : Car) (n : Nat) : (s.setLoad c n).ent = s.ent := by cases c <;> rfl
@[simp] theorem State.setLoad_adm (s : State) (c : Car) (n : Nat) : (s.setLoad c n).adm = s.adm := by cases c <;> rfl
@[simp] theorem State.setLoad_lnk (s : State) (c : Car) (n : Nat) : (s.setLoad c n).lnk = s.lnk := by cases c <;> rfl
@[simp] theorem State.setLoad_choices (s : State) (c : Car) (n : Nat) : (s.setLoad c n).choices = s.choices := by cases c <;> rfl
@[simp] theorem State.setLoad_pending (s : State) (c : Car) (n : Nat) : (s.setLoad c n).pending = s.pending := by cases c <;> rfl
@[simp] theorem State.setMonChannel_now (s : State) (c : MonChannel) (x : MonChannelState) : (s.setMonChannel c x).now = s.now := by
  cases c <;> rfl
@[simp] theorem State.setCond_now (s : State) (c : CondId) (x : Cond) : (s.setCond c x).now = s.now := by cases c <;> rfl
@[simp] theorem State.setMonChannel_params (s : State) (c : MonChannel) (x : MonChannelState) : (s.setMonChannel c x).params = s.params := by
  cases c <;> rfl
@[simp] theorem State.setCond_params (s : State) (c : CondId) (x : Cond) : (s.setCond c x).params = s.params := by cases c <;> rfl
@[simp] theorem State.setMonChannel_geo (s : State) (c : MonChannel) (x : MonChannelState) : (s.setMonChannel c x).geo = s.geo := by
  cases c <;> rfl
@[simp] theorem State.setCond_geo (s : State) (c : CondId) (x : Cond) : (s.setCond c x).geo = s.geo := by cases c <;> rfl
@[simp] theorem State.setMonChannel_spd (s : State) (c : MonChannel) (x : MonChannelState) : (s.setMonChannel c x).spd = s.spd := by
  cases c <;> rfl
@[simp] theorem State.setCond_spd (s : State) (c : CondId) (x : Cond) : (s.setCond c x).spd = s.spd := by cases c <;> rfl
@[simp] theorem State.setMonChannel_tsr (s : State) (c : MonChannel) (x : MonChannelState) : (s.setMonChannel c x).tsr = s.tsr := by
  cases c <;> rfl
@[simp] theorem State.setCond_tsr (s : State) (c : CondId) (x : Cond) : (s.setCond c x).tsr = s.tsr := by cases c <;> rfl
@[simp] theorem State.setMonChannel_haul (s : State) (c : MonChannel) (x : MonChannelState) : (s.setMonChannel c x).haul = s.haul := by
  cases c <;> rfl
@[simp] theorem State.setCond_haul (s : State) (c : CondId) (x : Cond) : (s.setCond c x).haul = s.haul := by cases c <;> rfl
@[simp] theorem State.setMonChannel_osb (s : State) (c : MonChannel) (x : MonChannelState) : (s.setMonChannel c x).osb = s.osb := by
  cases c <;> rfl
@[simp] theorem State.setCond_osb (s : State) (c : CondId) (x : Cond) : (s.setCond c x).osb = s.osb := by cases c <;> rfl
@[simp] theorem State.setMonChannel_stp (s : State) (c : MonChannel) (x : MonChannelState) : (s.setMonChannel c x).stp = s.stp := by
  cases c <;> rfl
@[simp] theorem State.setCond_stp (s : State) (c : CondId) (x : Cond) : (s.setCond c x).stp = s.stp := by cases c <;> rfl
@[simp] theorem State.setMonChannel_ent (s : State) (c : MonChannel) (x : MonChannelState) : (s.setMonChannel c x).ent = s.ent := by
  cases c <;> rfl
@[simp] theorem State.setCond_ent (s : State) (c : CondId) (x : Cond) : (s.setCond c x).ent = s.ent := by cases c <;> rfl
@[simp] theorem State.setMonChannel_adm (s : State) (c : MonChannel) (x : MonChannelState) : (s.setMonChannel c x).adm = s.adm := by
  cases c <;> rfl
@[simp] theorem State.setCond_adm (s : State) (c : CondId) (x : Cond) : (s.setCond c x).adm = s.adm := by cases c <;> rfl
@[simp] theorem State.setMonChannel_lnk (s : State) (c : MonChannel) (x : MonChannelState) : (s.setMonChannel c x).lnk = s.lnk := by
  cases c <;> rfl
@[simp] theorem State.setCond_lnk (s : State) (c : CondId) (x : Cond) : (s.setCond c x).lnk = s.lnk := by cases c <;> rfl
@[simp] theorem State.setMonChannel_choices (s : State) (c : MonChannel) (x : MonChannelState) : (s.setMonChannel c x).choices = s.choices := by
  cases c <;> rfl
@[simp] theorem State.setCond_choices (s : State) (c : CondId) (x : Cond) : (s.setCond c x).choices = s.choices := by cases c <;> rfl
@[simp] theorem State.setMonChannel_pending (s : State) (c : MonChannel) (x : MonChannelState) : (s.setMonChannel c x).pending = s.pending := by
  cases c <;> rfl
@[simp] theorem State.setCond_pending (s : State) (c : CondId) (x : Cond) : (s.setCond c x).pending = s.pending := by cases c <;> rfl
@[simp] theorem State.setChan_now (s : State) (c : Channel) (x : SpeedChannel) : (s.setChan c x).now = s.now := by cases c <;> rfl
@[simp] theorem State.setChan_params (s : State) (c : Channel) (x : SpeedChannel) : (s.setChan c x).params = s.params := by cases c <;> rfl
@[simp] theorem State.setChan_geo (s : State) (c : Channel) (x : SpeedChannel) : (s.setChan c x).geo = s.geo := by cases c <;> rfl
@[simp] theorem State.setChan_tsr (s : State) (c : Channel) (x : SpeedChannel) : (s.setChan c x).tsr = s.tsr := by cases c <;> rfl
@[simp] theorem State.setChan_mon (s : State) (c : Channel) (x : SpeedChannel) : (s.setChan c x).mon = s.mon := by cases c <;> rfl
@[simp] theorem State.setChan_haul (s : State) (c : Channel) (x : SpeedChannel) : (s.setChan c x).haul = s.haul := by cases c <;> rfl
@[simp] theorem State.setChan_osb (s : State) (c : Channel) (x : SpeedChannel) : (s.setChan c x).osb = s.osb := by cases c <;> rfl
@[simp] theorem State.setChan_stp (s : State) (c : Channel) (x : SpeedChannel) : (s.setChan c x).stp = s.stp := by cases c <;> rfl
@[simp] theorem State.setChan_ent (s : State) (c : Channel) (x : SpeedChannel) : (s.setChan c x).ent = s.ent := by cases c <;> rfl
@[simp] theorem State.setChan_adm (s : State) (c : Channel) (x : SpeedChannel) : (s.setChan c x).adm = s.adm := by cases c <;> rfl
@[simp] theorem State.setChan_lnk (s : State) (c : Channel) (x : SpeedChannel) : (s.setChan c x).lnk = s.lnk := by cases c <;> rfl
@[simp] theorem State.setChan_choices (s : State) (c : Channel) (x : SpeedChannel) : (s.setChan c x).choices = s.choices := by cases c <;> rfl
@[simp] theorem State.setChan_pending (s : State) (c : Channel) (x : SpeedChannel) : (s.setChan c x).pending = s.pending := by cases c <;> rfl

@[simp] theorem State.setCar_car (s : State) (c : Car) (x : CarState) : (s.setCar c x).car c = x := by cases c <;> rfl
@[simp] theorem State.setCar_other (s : State) (c : Car) (x : CarState) :
    (s.setCar c x).car (otherCar c) = s.car (otherCar c) := by cases c <;> rfl
@[simp] theorem State.setRecord_record (s : State) (c : Car) (r : Option StopRecord) :
    (s.setRecord c r).record c = r := by cases c <;> rfl
@[simp] theorem State.setRecord_other (s : State) (c : Car) (r : Option StopRecord) :
    (s.setRecord c r).record (otherCar c) = s.record (otherCar c) := by cases c <;> rfl
@[simp] theorem State.setChan_chan (s : State) (ch : Channel) (x : SpeedChannel) : (s.setChan ch x).chan ch = x := by
  cases ch <;> rfl

/-! ### The fields inside a block that an update writes or keeps -/

@[simp] theorem State.reply_attention (s : State) (c : Byte) (rc : ResultCode) (d : List Byte) :
    (s.reply c rc d).lnk.attention = s.lnk.attention := rfl
@[simp] theorem State.reply_buffer (s : State) (c : Byte) (rc : ResultCode) (d : List Byte) :
    (s.reply c rc d).lnk.buffer = some ⟨rc, c, d⟩ := rfl
/-- A command that ends with a result answers it. -/
theorem State.reply_answered (s : State) (c : Byte) (rc : ResultCode) (d : List Byte) :
    answered (s.reply c rc d) rc c d := rfl
@[simp] theorem State.setBuffer_buffer (s : State) (rc : ResultCode) (c : Byte) :
    (s.setBuffer rc c).lnk.buffer = some ⟨rc, c, []⟩ := rfl
/-- Whether a command is executing is read from the queue alone. -/
theorem State.executing_of_pending {s t : State} (h : t.pending = s.pending) : t.executing = s.executing := by
  simp only [State.executing, h]
@[simp] theorem State.reply_executing (s : State) (c : Byte) (rc : ResultCode) (d : List Byte) :
    (s.reply c rc d).executing = s.executing := rfl
@[simp] theorem State.setBuffer_executing (s : State) (rc : ResultCode) (c : Byte) :
    (s.setBuffer rc c).executing = s.executing := rfl
@[simp] theorem State.setBusy_executing (s : State) (c : Byte) : (s.setBusy c).executing = s.executing := rfl
@[simp] theorem State.setBusy_buffer (s : State) (c : Byte) : (s.setBusy c).lnk.buffer = some ⟨.busy, c, []⟩ := rfl
@[simp] theorem State.refuse_attention (s : State) (c : Byte) (x : Condition) :
    (s.refuse c x).lnk.attention = s.lnk.attention := rfl
@[simp] theorem State.raise_buffer (s : State) (c : Attention) : (s.raise c).lnk.buffer = s.lnk.buffer := rfl
@[simp] theorem State.raise_executing (s : State) (c : Attention) : (s.raise c).executing = s.executing := rfl
@[simp] theorem State.raise_attention (s : State) (c : Attention) :
    (s.raise c).lnk.attention = s.lnk.attention ||| attentionMask c := rfl
@[simp] theorem State.setEnt_table (s : State) (t : EntTable) : (s.setEnt t).ent.table = t := rfl
@[simp] theorem State.setPerm_vPerm (s : State) (v : Nat) : (s.setPerm v).haul.vPerm = v := rfl
@[simp] theorem State.setPerm_line (s : State) (v : Nat) : (s.setPerm v).haul.line = s.haul.line := rfl
@[simp] theorem State.publishSup_vSup (s : State) (v : Nat) : (s.publishSup v).haul.vSup = v := rfl
@[simp] theorem State.publishSup_line (s : State) (v : Nat) : (s.publishSup v).haul.line = s.haul.line := rfl
@[simp] theorem State.publishSup_t1 (s : State) (v : Nat) :
    (s.publishSup v).osb.t1 = threshold v (s.par 0x70) (s.par 0x71) := rfl
@[simp] theorem State.publishSup_t2 (s : State) (v : Nat) :
    (s.publishSup v).osb.t2 = threshold v (s.par 0x72) (s.par 0x73) := rfl
@[simp] theorem State.publishSup_vAbs (s : State) (v : Nat) : (s.publishSup v).osb.vAbs = s.par 0x74 := rfl
@[simp] theorem State.setRun_run (s : State) (r : Option RunRecord) : (s.setRun r).haul.run = r := rfl
@[simp] theorem State.setRun_line (s : State) (r : Option RunRecord) : (s.setRun r).haul.line = s.haul.line := rfl
@[simp] theorem State.setHalt_cause (s : State) (h : HaltCause) : (s.setHalt h).haul.haltCause = h := rfl
@[simp] theorem State.setHalt_line (s : State) (h : HaltCause) : (s.setHalt h).haul.line = s.haul.line := rfl
@[simp] theorem State.stopTorque_due (s : State) : s.stopTorque.haul.torqueDue = none := rfl
@[simp] theorem State.stopTorque_line (s : State) : s.stopTorque.haul.line = s.haul.line := rfl
@[simp] theorem State.setLine_line (s : State) (l : LineState) : (s.setLine l).haul.line = l := rfl
@[simp] theorem State.setLine_enable (s : State) (l : LineState) : (s.setLine l).haul.driveEnable = l.running := rfl
@[simp] theorem State.setLine_vDem (s : State) (l : LineState) : (s.setLine l).haul.vDem = 0 := rfl
@[simp] theorem State.setLine_safety (s : State) (l : LineState) :
    (s.setLine l).osb.safetyReleased = l.safetyReleased := rfl
@[simp] theorem State.setLine_service (s : State) (l : LineState) :
    (s.setLine l).osb.serviceReleased = l.serviceReleased := rfl
@[simp] theorem State.setDatum_datum (s : State) (k : Nat) (b : Bool) :
    (s.setDatum k b).geo.datum = s.geo.datum.set k b := rfl
@[simp] theorem State.fixPosition_pA (s : State) (n : Nat) : (s.fixPosition n).geo.pA = n * 1000 := rfl
@[simp] theorem State.fixPosition_referenced (s : State) (n : Nat) : (s.fixPosition n).geo.referenced = true := rfl
@[simp] theorem State.tick_now (s : State) : s.tick.now = s.now + 1 := rfl
@[simp] theorem State.push_pending (s : State) (i : Instr) : (s.push i).pending = i :: s.pending := rfl
@[simp] theorem State.advance_now (s : State) (t : Nat) : (s.advance t).now = max s.now t := rfl
@[simp] theorem State.bumpChoice_choices (s : State) : s.bumpChoice.choices = s.choices + 1 := rfl
@[simp] theorem State.setEntry_table (s : State) (n : Nat) (x : Option Restriction) :
    (s.setEntry n x).tsr.table = s.tsr.table.set n x := rfl
@[simp] theorem State.setAttention_set (s : State) (m : BitVec 16) : (s.setAttention m).lnk.attention = m := rfl

end Sys2Proof.Machine
end

