-- ==== Sys2Proof/Laws/Frame.lean ====
section
/-! SUPPORT. What each shared operation may change, once each: every other part is as it was, and no attention cause is
lost. -/

namespace Sys2Proof.Machine

set_option Elab.async false

/-! ### The calculus -/

theorem samePart.refl (p : Part) (s : State) : samePart p s s := by cases p <;> simp [samePart, sameCarPart]

theorem samePart.trans {p : Part} {s t u : State} (h : samePart p s t) (k : samePart p t u) : samePart p s u := by
  cases p <;> simp only [samePart, sameCarPart] at * <;> simp_all

theorem touches.refl (a : List Part) (s : State) : touches a s s :=
  ⟨fun p _ => samePart.refl p s, by simp [attentionKept]⟩

theorem touches.trans {a b : List Part} {s t u : State} (h : touches a s t) (k : touches b t u) :
    touches (a ++ b) s u := by
  refine ⟨fun p hp => ?_, ?_⟩
  · rw [List.mem_append, not_or] at hp
    exact (h.1 p hp.1).trans (k.1 p hp.2)
  · have h1 := h.2
    have k1 := k.2
    unfold attentionKept at *
    rw [← k1, ← BitVec.or_assoc, h1]

theorem touches.mono {a b : List Part} {s t : State} (h : touches a s t) (hab : a ⊆ b) : touches b s t :=
  ⟨fun p hp => h.1 p fun k => hp (hab k), h.2⟩

/-- Two changes within the same list are one change within it. -/
theorem touches.step {a : List Part} {s t u : State} (h : touches a s t) (k : touches a t u) : touches a s u :=
  (h.trans k).mono fun p hp => by simpa using hp

/-- A change in one of two cases. -/
theorem touches.ite {a : List Part} {s t u : State} {c : Prop} [Decidable c] (h : touches a s t) (k : touches a s u) :
    touches a s (if c then t else u) := by
  split
  · exact h
  · exact k

/-- Changes made one after the other along a list. -/
theorem touches.foldl {α : Type} {a : List Part} (f : State → α → State) (hf : ∀ s x, touches a s (f s x)) :
    ∀ (l : List α) (s : State), touches a s (l.foldl f s)
  | [], s => touches.refl a s
  | x :: l, s => (hf s x).step (touches.foldl f hf l (f s x))

/-! ### Plain updates -/

theorem State.reply_touches (s : State) (c : Byte) (rc : ResultCode) (d : List Byte) :
    touches [.result] s (s.reply c rc d) := by
  refine ⟨fun p hp => ?_, by simp [attentionKept]⟩
  cases p <;> first
    | exact rfl
    | exact And.intro rfl rfl
    | exact absurd (by decide) hp
    | simp [samePart, sameCarPart, State.reply]

theorem State.refuse_touches (s : State) (c : Byte) (x : Condition) :
    touches [.result] s (s.refuse c x) := by
  refine ⟨fun p hp => ?_, by simp [attentionKept]⟩
  cases p <;> first
    | exact rfl
    | exact And.intro rfl rfl
    | exact absurd (by decide) hp
    | simp [samePart, sameCarPart, State.refuse, State.reply]

theorem State.advance_touches (s : State) (t : Nat) :
    touches [.time] s (s.advance t) := by
  refine ⟨fun p hp => ?_, by simp [attentionKept]⟩
  cases p <;> first
    | exact rfl
    | exact And.intro rfl rfl
    | exact absurd (by decide) hp
    | simp [samePart, sameCarPart, State.advance]

theorem State.setCar_touches (s : State) (c : Car) (x : CarState) :
    touches [.links, .reports, .records, .alarms, .admitted, .evac] s (s.setCar c x) := by
  refine ⟨fun p hp => ?_, by simp [attentionKept]⟩
  cases c <;> cases p <;> first
    | exact rfl
    | exact And.intro rfl rfl
    | exact absurd (by decide) hp
    | simp [samePart, State.setCar]

theorem State.setRecord_touches (s : State) (c : Car) (r : Option StopRecord) :
    touches [.records] s (s.setRecord c r) := by
  refine ⟨fun p hp => ?_, by simp [attentionKept]⟩
  cases c <;> cases p <;> first
    | exact rfl
    | exact And.intro rfl rfl
    | exact absurd (by decide) hp
    | simp [samePart, sameCarPart, State.setRecord, State.setCar, State.car]

theorem State.setLoad_touches (s : State) (c : Car) (n : Nat) :
    touches [.loads] s (s.setLoad c n) := by
  refine ⟨fun p hp => ?_, by simp [attentionKept]⟩
  cases c <;> cases p <;> first
    | exact rfl
    | exact And.intro rfl rfl
    | exact absurd (by decide) hp
    | simp [samePart, sameCarPart, State.setLoad]

theorem State.newRecord_touches (s : State) (c : Car) (k : Nat) :
    touches [.records, .alarms] s (s.newRecord c k) := by
  refine ⟨fun p hp => ?_, by simp [attentionKept]⟩
  cases c <;> cases p <;> first
    | exact rfl
    | exact And.intro rfl rfl
    | exact absurd (by decide) hp
    | simp [samePart, sameCarPart, State.newRecord, State.setCar, State.car]

theorem State.setEnt_touches (s : State) (t : EntTable) :
    touches [.ent] s (s.setEnt t) := by
  refine ⟨fun p hp => ?_, by simp [attentionKept]⟩
  cases p <;> first
    | exact rfl
    | exact And.intro rfl rfl
    | exact absurd (by decide) hp
    | simp [samePart, sameCarPart, State.setEnt]

theorem State.detachClaim_touches (s : State) (n : Nat) :
    touches [.ent] s (s.detachClaim n) := by
  refine ⟨fun p hp => ?_, by simp [attentionKept]⟩
  cases p <;> first
    | exact rfl
    | exact And.intro rfl rfl
    | exact absurd (by decide) hp
    | simp [samePart, sameCarPart, State.detachClaim, State.setEnt]

theorem State.dropClaim_touches (s : State) (id : Byte) :
    touches [.claims] s (s.dropClaim id) := by
  refine ⟨fun p hp => ?_, by simp [attentionKept]⟩
  cases p <;> first
    | exact rfl
    | exact And.intro rfl rfl
    | exact absurd (by decide) hp
    | simp [samePart, sameCarPart, State.dropClaim]

theorem State.forgetRecord_touches (s : State) (c : Car) :
    touches [.gates] s (s.forgetRecord c) := by
  refine ⟨fun p hp => ?_, by simp [attentionKept]⟩
  cases p <;> first
    | exact rfl
    | exact And.intro rfl rfl
    | exact absurd (by decide) hp
    | simp [samePart, sameCarPart, State.forgetRecord]

theorem State.clearClaims_touches (s : State) :
    touches [.ent, .claims, .gates] s s.clearClaims := by
  refine ⟨fun p hp => ?_, by simp [attentionKept]⟩
  cases p <;> first
    | exact rfl
    | exact And.intro rfl rfl
    | exact absurd (by decide) hp
    | simp [samePart, sameCarPart, State.clearClaims]

theorem State.endEvacuations_touches (s : State) :
    touches [.evac] s s.endEvacuations := by
  refine ⟨fun p hp => ?_, by simp [attentionKept]⟩
  cases p <;> first
    | exact rfl
    | exact And.intro rfl rfl
    | exact absurd (by decide) hp
    | simp [samePart, sameCarPart, State.endEvacuations]

theorem State.setPerm_touches (s : State) (v : Nat) :
    touches [.speeds] s (s.setPerm v) := by
  refine ⟨fun p hp => ?_, by simp [attentionKept]⟩
  cases p <;> first
    | exact rfl
    | exact And.intro rfl rfl
    | exact absurd (by decide) hp
    | simp [samePart, sameCarPart, State.setPerm]

theorem State.publishSup_touches (s : State) (v : Nat) :
    touches [.speeds, .thresholds] s (s.publishSup v) := by
  refine ⟨fun p hp => ?_, by simp [attentionKept]⟩
  cases p <;> first
    | exact rfl
    | exact And.intro rfl rfl
    | exact absurd (by decide) hp
    | simp [samePart, sameCarPart, State.publishSup]

theorem State.setRun_touches (s : State) (r : Option RunRecord) :
    touches [.run] s (s.setRun r) := by
  refine ⟨fun p hp => ?_, by simp [attentionKept]⟩
  cases p <;> first
    | exact rfl
    | exact And.intro rfl rfl
    | exact absurd (by decide) hp
    | simp [samePart, sameCarPart, State.setRun]

theorem State.setHalt_touches (s : State) (h : HaltCause) :
    touches [.haltCause] s (s.setHalt h) := by
  refine ⟨fun p hp => ?_, by simp [attentionKept]⟩
  cases p <;> first
    | exact rfl
    | exact And.intro rfl rfl
    | exact absurd (by decide) hp
    | simp [samePart, sameCarPart, State.setHalt]

theorem State.stopTorque_touches (s : State) :
    touches [.torque] s s.stopTorque := by
  refine ⟨fun p hp => ?_, by simp [attentionKept]⟩
  cases p <;> first
    | exact rfl
    | exact And.intro rfl rfl
    | exact absurd (by decide) hp
    | simp [samePart, sameCarPart, State.stopTorque]

theorem State.latch_touches (s : State) (c : TripCause) :
    touches [.latch] s (s.latch c) := by
  refine ⟨fun p hp => ?_, by simp [attentionKept]⟩
  cases p <;> first
    | exact rfl
    | exact And.intro rfl rfl
    | exact absurd (by decide) hp
    | simp [samePart, sameCarPart, State.latch]

theorem State.beginWait_touches (s : State) :
    touches [.resetWait] s s.beginWait := by
  refine ⟨fun p hp => ?_, by simp [attentionKept]⟩
  cases p <;> first
    | exact rfl
    | exact And.intro rfl rfl
    | exact absurd (by decide) hp
    | simp [samePart, sameCarPart, State.beginWait]

theorem State.bumpChoice_touches (s : State) :
    touches [.choices] s s.bumpChoice := by
  refine ⟨fun p hp => ?_, by simp [attentionKept]⟩
  cases p <;> first
    | exact rfl
    | exact And.intro rfl rfl
    | exact absurd (by decide) hp
    | simp [samePart, sameCarPart, State.bumpChoice]

theorem State.setEntry_touches (s : State) (n : Nat) (x : Option Restriction) :
    touches [.restrictions] s (s.setEntry n x) := by
  refine ⟨fun p hp => ?_, by simp [attentionKept]⟩
  cases p <;> first
    | exact rfl
    | exact And.intro rfl rfl
    | exact absurd (by decide) hp
    | simp [samePart, sameCarPart, State.setEntry]

theorem attentionKept_or (s t : State) (m : BitVec 16) (h : t.lnk.attention = s.lnk.attention ||| m) :
    attentionKept s t := by
  unfold attentionKept
  rw [h, ← BitVec.or_assoc, BitVec.or_self]

theorem State.raise_touches (s : State) (c : Attention) : touches [.attention] s (s.raise c) := by
  refine ⟨fun p hp => ?_, attentionKept_or _ _ _ rfl⟩
  cases p <;> first
    | exact rfl
    | exact And.intro rfl rfl
    | exact absurd (by decide) hp
    | simp [samePart, sameCarPart, State.raise]

theorem State.addFurther_touches (s : State) (c : TripCause) : touches [.latch, .attention] s (s.addFurther c) := by
  refine ⟨fun p hp => ?_, attentionKept_or _ _ _ rfl⟩
  cases p <;> first
    | exact rfl
    | exact And.intro rfl rfl
    | exact absurd (by decide) hp
    | simp [samePart, sameCarPart, State.addFurther, State.raise]

theorem State.setLine_touches (s : State) (l : LineState) :
    touches lineParts s (s.setLine l) := by
  refine ⟨fun p hp => ?_, attentionKept_or _ _ (attentionMask .lineState) (by cases l <;> rfl)⟩
  cases p <;> first
    | exact absurd (by decide) hp
    | (cases l <;> first
        | exact rfl
        | exact And.intro rfl rfl
        | simp [samePart, sameCarPart, State.setLine, State.raise, State.endEvacuations, LineState.keepsEvacuation])

theorem State.modRecord_touches (s : State) (c : Car) (f : StopRecord → StopRecord) :
    touches [.records] s (s.modRecord c f) := by
  unfold State.modRecord
  split
  · exact s.setRecord_touches c _
  · exact touches.refl _ s

theorem State.modGate_touches (s : State) (k : Nat) (f : Gate → Gate) : touches [.gates] s (s.modGate k f) := by
  unfold State.modGate
  split
  · refine ⟨fun p hp => ?_, by simp [attentionKept]⟩
    cases p <;> first
      | exact rfl
      | exact And.intro rfl rfl
      | exact absurd (by decide) hp
      | simp [samePart, sameCarPart]
  · exact touches.refl _ s

theorem State.deriveBoarding_touches (s : State) : touches [.boarding] s s.deriveBoarding := by
  simp only [State.deriveBoarding]
  split
  · exact touches.refl _ s
  · refine ⟨fun p hp => ?_, by simp [attentionKept]⟩
    cases p <;> first
      | exact rfl
      | exact And.intro rfl rfl
      | exact absurd (by decide) hp
      | simp [samePart, sameCarPart]

theorem State.dropHold_touches (s : State) (c : TripCause) : touches [.hold] s (s.dropHold c) := by
  unfold State.dropHold
  split
  · refine ⟨fun p hp => ?_, by simp [attentionKept]⟩
    cases p <;> first
      | exact rfl
      | exact And.intro rfl rfl
      | exact absurd (by decide) hp
      | simp [samePart, sameCarPart]
  · exact touches.refl _ s

theorem State.addBoarded_touches (s : State) (c : Car) (n : Nat) (b : Bool) :
    touches [.records, .admitted] s (s.addBoarded c n b) := by
  unfold State.addBoarded
  split
  · exact touches.refl _ s
  · refine ⟨fun p hp => ?_, by simp [attentionKept]⟩
    cases c <;> cases p <;> first
      | exact rfl
      | exact And.intro rfl rfl
      | exact absurd (by decide) hp
      | simp [samePart, sameCarPart, State.setCar, State.car]

theorem State.moveAlarm_touches (s : State) (c : Car) : touches [.records, .alarms] s (s.moveAlarm c) := by
  unfold State.moveAlarm
  split
  · refine ⟨fun p hp => ?_, by simp [attentionKept]⟩
    cases c <;> cases p <;> first
      | exact rfl
      | exact And.intro rfl rfl
      | exact absurd (by decide) hp
      | simp [samePart, sameCarPart, State.setCar, State.car]
  · exact touches.refl _ s

/-! ### Stop records -/

theorem State.setSuspended_touches (s : State) (b : Bool) : touches [.records] s (s.setSuspended b) :=
  (s.modRecord_touches .a _).step (State.modRecord_touches _ .b _)

theorem State.commandClose_touches (s : State) (c : Car) (b : Bool) : touches [.records] s (s.commandClose c b) :=
  s.modRecord_touches c _

theorem State.enterReady_touches (s : State) (c : Car) :
    touches [.records, .loads, .attention] s (s.enterReady c) := by
  unfold State.enterReady
  split
  · exact touches.refl _ s
  · exact (((s.setRecord_touches c _).trans (State.setLoad_touches _ c _)).trans (State.raise_touches _ _)).mono
      (by decide)

theorem State.tryReady_touches (s : State) (c : Car) : touches [.records, .loads, .attention] s (s.tryReady c) := by
  unfold State.tryReady
  split
  · exact touches.refl _ s
  · exact (s.enterReady_touches c).ite (touches.refl _ s)

theorem State.enterClosing_touches (s : State) (c : Car) : touches [.records, .attention] s (s.enterClosing c) :=
  (((s.modRecord_touches c _).trans (State.commandClose_touches _ c _)).trans (State.raise_touches _ _)).mono (by decide)

theorem State.exitClose_touches (s : State) (c : Car) : touches [.records] s (s.exitClose c) :=
  (s.modRecord_touches c _).step (State.commandClose_touches _ c _)

theorem State.enterBoarding_touches (s : State) (c : Car) : touches [.records, .attention] s (s.enterBoarding c) := by
  unfold State.enterBoarding
  split
  · exact touches.refl _ s
  · exact (s.setRecord_touches c _).trans (State.raise_touches _ _)

theorem State.enterAlighting_touches (s : State) (c : Car) (n : Nat) :
    touches [.records, .attention] s (s.enterAlighting c n) := by
  have h := (s.modRecord_touches c fun r =>
    { r with phase := .alighting, phaseDue := some (s.now + sec n) }).trans (State.raise_touches _ .stopPhase)
  exact touches.ite ((h.trans (State.exitClose_touches _ c)).mono (by decide)) h

theorem State.testBerthed_touches (s : State) (c : Car) : touches [.records, .attention] s (s.testBerthed c) := by
  unfold State.testBerthed
  split
  · exact touches.refl _ s
  · refine touches.ite ?_ (touches.refl _ s)
    split
    · exact touches.ite (s.enterAlighting_touches c _) (s.enterBoarding_touches c)
    · exact s.enterBoarding_touches c

theorem State.testInspection_touches (s : State) (c : Car) :
    touches [.records, .loads, .attention] s (s.testInspection c) := by
  unfold State.testInspection
  split
  · exact touches.refl _ s
  · exact touches.ite (((s.setRecord_touches c _).trans (State.enterReady_touches _ c)).mono (by decide))
      (touches.refl _ s)

theorem State.testArrived_touches (s : State) (c : Car) :
    touches [.records, .loads, .attention] s (s.testArrived c) :=
  ((s.testBerthed_touches c).trans (State.testInspection_touches _ c)).mono (by decide)

theorem State.createRecords_touches (s : State) (k : Nat) :
    touches [.records, .alarms, .loads, .attention] s (s.createRecords k) :=
  (((((s.newRecord_touches .a k).trans (State.newRecord_touches _ .b (3 - k))).trans
    (State.raise_touches _ .stopPhase)).trans (State.testArrived_touches _ .a)).trans
    (State.testArrived_touches _ .b)).mono (by decide)

theorem State.lowerHeld_touches (s : State) (c : Car) (n : Nat) :
    touches [.records, .loads, .attention] s (s.lowerHeld c n) :=
  ((s.modRecord_touches c _).trans (State.tryReady_touches _ c)).mono (by decide)

/-! ### Entitlements and claims -/

theorem State.commitSlot_touches (s : State) (slot station n : Nat) :
    touches [.ent] s (s.commitSlot slot station n) := by
  unfold State.commitSlot
  split
  · exact touches.refl _ s
  · exact s.setEnt_touches _

theorem State.onTimeCommit_touches (s : State) (slot station n : Nat) :
    touches [.ent] s (s.onTimeCommit slot station n) :=
  (s.detachClaim_touches slot).step (State.commitSlot_touches _ slot station n)

theorem State.lateCommit_touches (s : State) (m : Media) (station n : Nat) :
    touches [.ent] s (s.lateCommit m station n) := by
  unfold State.lateCommit
  split
  · exact touches.ite (touches.refl _ s) (s.commitSlot_touches _ station n)
  · exact touches.refl _ s

theorem State.lapseClaim_touches (s : State) (cl : Claim) : touches lapseParts s (s.lapseClaim cl) :=
  ((((s.lowerHeld_touches cl.car cl.persons).trans (State.detachClaim_touches _ cl.slot)).trans
    (State.dropClaim_touches _ cl.id)).trans (State.modGate_touches _ cl.gate _)).mono (by decide)

theorem State.discardRecord_touches (s : State) (c : Car) : touches lapseParts s (s.discardRecord c) := by
  unfold State.discardRecord
  split
  · exact touches.refl _ s
  · exact (((s.setRecord_touches c none).trans (touches.foldl _ State.lapseClaim_touches _ _)).trans
      (State.forgetRecord_touches _ c)).mono (by decide)

theorem State.discardRecords_touches (s : State) : touches lapseParts s s.discardRecords :=
  (s.discardRecord_touches .a).step (State.discardRecord_touches _ .b)

/-! ### Line transitions -/

theorem State.enterHalted_touches (s : State) (h : HaltCause) :
    touches haltParts s (s.enterHalted h) :=
  (((((s.setLine_touches .halted).trans (State.setHalt_touches _ h)).trans (State.setPerm_touches _ 0)).trans
    (State.stopTorque_touches _)).trans (State.discardRecords_touches _)).mono (by decide)

theorem State.haltEvent_touches (s : State) (h : HaltCause) :
    touches haltParts s (s.haltEvent h) :=
  (s.enterHalted_touches h).ite (touches.refl _ s)

theorem State.dwellSpeeds_touches (s : State) :
    touches [.run, .haltCause, .torque, .speeds, .thresholds] s s.dwellSpeeds :=
  (((((s.setRun_touches none).trans (State.setHalt_touches _ .noCause)).trans (State.stopTorque_touches _)).trans
    (State.setPerm_touches _ 0)).trans (State.publishSup_touches _ 0)).mono (by decide)

theorem State.enterDwell_touches (s : State) (k : Nat) : touches transitionParts s (s.enterDwell k) :=
  (((s.setLine_touches .dwell).trans (State.dwellSpeeds_touches _)).trans (State.createRecords_touches _ k)).mono
    (by decide)

theorem State.returnToDwell_touches (s : State) (h : HaltCause) : touches transitionParts s (s.returnToDwell h) :=
  (((((s.setLine_touches .dwell).trans (State.dwellSpeeds_touches _)).trans (State.setHalt_touches _ h)).trans
    (State.moveAlarm_touches _ .a)).trans (State.moveAlarm_touches _ .b)).mono (by decide)

theorem State.enterParked_touches (s : State) : touches transitionParts s s.enterParked :=
  (((s.setLine_touches .parked).trans (State.discardRecords_touches _)).trans (State.dwellSpeeds_touches _)).mono
    (by decide)

/-! ### Trip causes and the comparison -/

theorem State.enterTripped_touches (s : State) (c : TripCause) : touches tripParts s (s.enterTripped c) :=
  ((((((((s.latch_touches c).trans (State.setLine_touches _ .tripped)).trans (State.setPerm_touches _ 0)).trans
    (State.stopTorque_touches _)).trans (State.dropHold_touches _ c)).trans (State.beginWait_touches _)).trans
    (State.setSuspended_touches _ true)).trans (State.raise_touches _ .trip)).mono (by decide)

theorem State.takeCause_touches (s : State) (c : TripCause) : touches tripParts s (s.takeCause c) := by
  unfold State.takeCause
  split <;> first
    | exact s.enterTripped_touches c
    | exact touches.ite ((s.addFurther_touches c).mono (by decide)) (touches.refl _ s)
    | exact touches.ite (touches.refl _ s)
        (((s.addFurther_touches c).trans (State.dropHold_touches _ c)).mono (by decide))

theorem State.takeAll_touches (s : State) (cs : List TripCause) : touches tripParts s (s.takeAll cs) :=
  touches.foldl _ State.takeCause_touches cs s

theorem State.takeBoth_touches (s : State) (c d : TripCause) :
    touches (.choices :: tripParts) s (s.takeBoth c d) :=
  touches.ite (((s.bumpChoice_touches).trans (State.takeAll_touches _ _)).mono (by decide))
    (((s.bumpChoice_touches).trans (State.takeAll_touches _ _)).mono (by decide))

theorem State.intervene_touches (s : State) : touches (.interventions :: tripParts) s s.intervene := by
  have h : touches [.interventions] (s.setLine .intervening)
      { s.setLine .intervening with
        osb := { (s.setLine .intervening).osb with
          interventions := min 65535 ((s.setLine .intervening).osb.interventions + 1) } } := by
    refine ⟨fun p hp => ?_, by simp [attentionKept]⟩
    cases p <;> first
      | exact rfl
      | exact And.intro rfl rfl
      | exact absurd (by decide) hp
      | simp [samePart, sameCarPart]
  exact (((s.setLine_touches .intervening).trans h).trans (State.raise_touches _ _)).mono (by decide)

theorem State.releaseIntervention_touches (s : State) : touches tripParts s s.releaseIntervention := by
  have h : touches [.speeds] (s.setLine .moving)
      { s.setLine .moving with
        haul := { (s.setLine .moving).haul with rampFrom := (s.setLine .moving).spd.vMeas } } := by
    refine ⟨fun p hp => ?_, by simp [attentionKept]⟩
    cases p <;> first
      | exact rfl
      | exact And.intro rfl rfl
      | exact absurd (by decide) hp
      | simp [samePart, sameCarPart]
  exact ((s.setLine_touches .moving).trans h).mono (by decide)

theorem State.compare_touches (s : State) : touches compareParts s s.compare := by
  unfold State.compare
  split
  · exact touches.ite ((s.intervene_touches).mono (by decide))
      (touches.ite ((s.releaseIntervention_touches).mono (by decide)) (touches.refl _ s))
  · exact (s.takeAll_touches _).mono (by decide)

theorem State.compareWith_touches (s : State) (c : TripCause) : touches compareParts s (s.compareWith c) := by
  unfold State.compareWith
  refine touches.ite (touches.ite ?_ ?_) ((s.takeCause_touches c).mono (by decide))
  · exact ((s.bumpChoice_touches).trans (State.takeAll_touches _ _)).mono (by decide)
  · exact (((s.bumpChoice_touches).trans (State.compare_touches _)).trans (State.takeCause_touches _ c)).mono (by decide)

theorem State.compareRollback_touches (s : State) : touches compareParts s s.compareRollback := by
  have h : touches [.rollback] s { s with spd := { s.spd with rollback := s.rollbackMet } } := by
    refine ⟨fun p hp => ?_, by simp [attentionKept]⟩
    cases p <;> first
      | exact rfl
      | exact And.intro rfl rfl
      | exact absurd (by decide) hp
      | simp [samePart, sameCarPart]
  exact touches.ite ((h.trans (State.compareWith_touches _ .rollback)).mono (by decide))
    ((h.trans (State.compare_touches _)).mono (by decide))

end Sys2Proof.Machine
end

