-- ==== Sys2Proof/Laws/Commands.lean ====
section
/-! SUPPORT. What each command may change: the frame lemma of each meaning, against the table partsOf. -/

namespace Sys2Proof.Machine

set_option Elab.async false

/-- A line-link command changes what its own rule changes, or the result alone. -/
theorem withForm_touches {α : Type} {a : List Part} {code : Byte} {p : Form α} {s t : State} {f : α → State}
    (h : withForm code p s f = .next t) (ha : Part.result ∈ a) (hf : ∀ x, touches a s (f x)) : touches a s t := by
  cases p with
  | wrongLength =>
    cases h
    exact (s.reply_touches code .badParameter []).mono (by simpa using ha)
  | fields x =>
    cases h
    exact hf x

/-- A result after a change within a list that admits results. -/
theorem touches.reply {a : List Part} {s t : State} (h : touches a s t) (ha : Part.result ∈ a) (c : Byte)
    (rc : ResultCode) (d : List Byte) : touches a s (t.reply c rc d) :=
  h.step ((t.reply_touches c rc d).mono (by simpa using ha))

/-- An expiry changes what its event changes, and the time. -/
theorem onExpiry_touches {a : List Part} (due : Option Nat) (s : State) (f : State → State) (ha : Part.time ∈ a)
    (hf : ∀ u, touches a u (f u)) : touches a s (onExpiry due s f) := by
  unfold onExpiry
  split
  · exact ((s.advance_touches _).mono (by simpa using ha)).step (hf _)
  · exact touches.refl _ s

/-! ### Clock and restrictions -/

theorem State.appendEnded_touches (s : State) (r : EndedRecord) : touches [.ended] s (s.appendEnded r) := by
  unfold State.appendEnded
  split <;>
  · refine ⟨fun p hp => ?_, by simp [attentionKept]⟩
    cases p <;> first
      | exact rfl
      | exact And.intro rfl rfl
      | exact And.intro rfl (And.intro rfl rfl)
      | exact And.intro rfl (And.intro rfl (And.intro rfl rfl))
      | exact absurd (by decide) hp
      | simp [samePart, sameCarPart]

theorem State.pendingPass_touches (s : State) : touches [.restrictions] s s.pendingPass := by
  refine ⟨fun p hp => ?_, by simp [attentionKept]⟩
  cases p <;> first
    | exact rfl
    | exact And.intro rfl rfl
    | exact And.intro rfl (And.intro rfl rfl)
    | exact And.intro rfl (And.intro rfl (And.intro rfl rfl))
    | exact absurd (by decide) hp
    | simp [samePart, sameCarPart, State.pendingPass]

theorem State.expire_touches (s : State) (n : Nat) : touches [.restrictions, .ended, .attention] s (s.expire n) := by
  unfold State.expire
  split
  · refine touches.ite ?_ (touches.refl _ s)
    exact (((s.setEntry_touches n none).trans (State.appendEnded_touches _ _)).trans
      (State.raise_touches _ _)).mono (by decide)
  · exact touches.refl _ s

theorem State.boundaryPasses_touches (s : State) :
    touches [.restrictions, .ended, .attention] s s.boundaryPasses :=
  (s.pendingPass_touches.trans (touches.foldl _ State.expire_touches _ _)).mono (by decide)

theorem execSetClock_touches (p : Form ClockArgs) (s t : State) (h : execSetClock p s = .next t) :
    touches (partsOf (.setClock p)) s t := by
  refine withForm_touches h (by simp only [partsOf]; decide) fun x => ?_
  unfold setClock
  refine touches.ite ((s.reply_touches _ _ _).mono (by simp only [partsOf]; decide)) ?_
  have h0 : touches [.clock] s { s with tsr := { s.tsr with
      clockSet := true, day := x.day.toNat, minute := x.minute.toNat, minuteDue := some (s.now + 60000000) } } := by
    refine ⟨fun p hp => ?_, by simp [attentionKept]⟩
    cases p <;> first
      | exact rfl
      | exact And.intro rfl rfl
      | exact And.intro rfl (And.intro rfl rfl)
      | exact And.intro rfl (And.intro rfl (And.intro rfl rfl))
      | exact absurd (by decide) hp
      | simp [samePart, sameCarPart]
  exact ((h0.trans (State.boundaryPasses_touches _)).trans (State.reply_touches _ _ _ _)).mono (by simp only [partsOf]; decide)

theorem execMinuteBoundary_touches (s t : State) (h : execMinuteBoundary s = .next t) :
    touches (partsOf .minuteBoundary) s t := by
  cases h
  refine onExpiry_touches _ s _ (by decide) fun u => ?_
  have h0 : ∀ x : TsrState, x.table = u.tsr.table → x.ended = u.tsr.ended → x.overflow = u.tsr.overflow →
      touches [.clock] u { u with tsr := x } := by
    intro x h1 h2 h3
    refine ⟨fun p hp => ?_, by simp [attentionKept]⟩
    cases p <;> first
      | exact rfl
      | exact And.intro rfl rfl
      | exact And.intro rfl (And.intro rfl rfl)
      | exact And.intro rfl (And.intro rfl (And.intro rfl rfl))
      | exact absurd (by decide) hp
      | simp [samePart, sameCarPart, h1, h2, h3]
  split
  · exact (h0 { u.tsr with minuteDue := none } rfl rfl rfl).mono (b := partsOf .minuteBoundary) (by decide)
  · refine ((h0 _ ?_ ?_ ?_).trans (State.boundaryPasses_touches _)).mono (by decide) <;> split <;> rfl

theorem execGetClock_touches (p : Form NoArgs) (s t : State) (h : execGetClock p s = .next t) :
    touches (partsOf (.getClock p)) s t :=
  withForm_touches h (by simp only [partsOf]; decide) fun _ => s.reply_touches _ _ _

theorem execAddRestriction_touches (p : Form AddRestrictionArgs) (s t : State) (h : execAddRestriction p s = .next t) :
    touches (partsOf (.addRestriction p)) s t := by
  refine withForm_touches h (by simp only [partsOf]; decide) fun x => ?_
  simp only [addRestriction]
  repeat' split
  all_goals first
    | exact (s.reply_touches _ _ _).mono (by simp only [partsOf]; decide)
    | exact ((s.setEntry_touches _ _).trans (State.reply_touches _ _ _ _)).mono (by simp only [partsOf]; decide)

theorem execAmendRestriction_touches (p : Form AmendRestrictionArgs) (s t : State)
    (h : execAmendRestriction p s = .next t) : touches (partsOf (.amendRestriction p)) s t := by
  refine withForm_touches h (by simp only [partsOf]; decide) fun x => ?_
  simp only [amendRestriction]
  repeat' split
  all_goals first
    | exact (s.reply_touches _ _ _).mono (by simp only [partsOf]; decide)
    | exact ((s.setEntry_touches _ _).trans (State.reply_touches _ _ _ _)).mono (by simp only [partsOf]; decide)

theorem execRetireRestriction_touches (p : Form Byte) (s t : State) (h : execRetireRestriction p s = .next t) :
    touches (partsOf (.retireRestriction p)) s t := by
  refine withForm_touches h (by simp only [partsOf]; decide) fun x => ?_
  simp only [retireRestriction]
  repeat' split
  all_goals first
    | exact (s.reply_touches _ _ _).mono (by simp only [partsOf]; decide)
    | exact ((s.setEntry_touches _ _).trans (State.reply_touches _ _ _ _)).mono (by simp only [partsOf]; decide)

theorem execReadRestriction_touches (p : Form Byte) (s t : State) (h : execReadRestriction p s = .next t) :
    touches (partsOf (.readRestriction p)) s t := by
  refine withForm_touches h (by simp only [partsOf]; decide) fun x => ?_
  have h0 : touches [.ended] s { s with tsr := { s.tsr with ended := [], overflow := false } } := by
    refine ⟨fun p hp => ?_, by simp [attentionKept]⟩
    cases p <;> first
      | exact rfl
      | exact And.intro rfl rfl
      | exact And.intro rfl (And.intro rfl rfl)
      | exact And.intro rfl (And.intro rfl (And.intro rfl rfl))
      | exact absurd (by decide) hp
      | simp [samePart, sameCarPart]
  simp only [readRestriction]
  repeat' split
  all_goals first
    | exact (s.reply_touches _ _ _).mono (by simp only [partsOf]; decide)
    | exact (h0.trans (State.reply_touches _ _ _ _)).mono (by simp only [partsOf]; decide)

/-! ### Parameters, reads and the link -/

theorem execSetParameter_touches (p : Form ParamArgs) (s t : State) (h : execSetParameter p s = .next t) :
    touches (partsOf (.setParameter p)) s t := by
  refine withForm_touches h (by simp only [partsOf]; decide) fun x => ?_
  have h0 : ∀ ps, touches [.params] s { s with params := ps } := by
    intro ps
    refine ⟨fun p hp => ?_, by simp [attentionKept]⟩
    cases p <;> first
      | exact rfl
      | exact And.intro rfl rfl
      | exact And.intro rfl (And.intro rfl rfl)
      | exact And.intro rfl (And.intro rfl (And.intro rfl rfl))
      | exact absurd (by decide) hp
      | simp [samePart, sameCarPart]
  simp only [setParameter]
  repeat' split
  all_goals first
    | exact (s.reply_touches _ _ _).mono (by simp only [partsOf]; decide)
    | exact ((h0 _).trans (State.reply_touches _ _ _ _)).mono (by simp only [partsOf]; decide)

theorem execGetParameter_touches (p : Form Byte) (s t : State) (h : execGetParameter p s = .next t) :
    touches (partsOf (.getParameter p)) s t := by
  refine withForm_touches h (by simp only [partsOf]; decide) fun x => ?_
  unfold getParameter
  split <;> exact s.reply_touches _ _ _

theorem execReadGeometry_touches (p : Form ReadGeoArgs) (s t : State) (h : execReadGeometry p s = .next t) :
    touches (partsOf (.readGeometry p)) s t := by
  refine withForm_touches h (by simp only [partsOf]; decide) fun x => ?_
  have h0 : ∀ d, touches [.result] s (s.readItem d) := by
    intro d
    cases d <;> exact s.reply_touches _ _ _
  simp only [readGeometry]
  repeat' split
  all_goals first
    | exact s.reply_touches _ _ _
    | exact h0 _

theorem execReadStopRecord_touches (p : Form Byte) (s t : State) (h : execReadStopRecord p s = .next t) :
    touches (partsOf (.readStopRecord p)) s t := by
  refine withForm_touches h (by simp only [partsOf]; decide) fun x => ?_
  split <;> exact s.reply_touches _ _ _

theorem execReadGateStatus_touches (p : Form Byte) (s t : State) (h : execReadGateStatus p s = .next t) :
    touches (partsOf (.readGateStatus p)) s t := by
  refine withForm_touches h (by simp only [partsOf]; decide) fun x => ?_
  unfold readGateStatus
  repeat' split
  all_goals exact s.reply_touches _ _ _

theorem execReadLineStatus_touches (p : Form NoArgs) (s t : State) (h : execReadLineStatus p s = .next t) :
    touches (partsOf (.readLineStatus p)) s t :=
  withForm_touches h (by simp only [partsOf]; decide) fun _ => s.reply_touches _ _ _

theorem execReadMonitor_touches (p : Form NoArgs) (s t : State) (h : execReadMonitor p s = .next t) :
    touches (partsOf (.readMonitor p)) s t :=
  withForm_touches h (by simp only [partsOf]; decide) fun _ => s.reply_touches _ _ _

theorem execCount_touches (p : Form NoArgs) (s t : State) (h : execCount p s = .next t) :
    touches (partsOf (.count p)) s t :=
  withForm_touches h (by simp only [partsOf]; decide) fun _ => s.reply_touches _ _ _

theorem execLookUpEntitlement_touches (p : Form LookUpArgs) (s t : State) (h : execLookUpEntitlement p s = .next t) :
    touches (partsOf (.lookUpEntitlement p)) s t := by
  refine withForm_touches h (by simp only [partsOf]; decide) fun x => ?_
  have h0 : ∀ d, touches [.result] s (s.lookUpAnswer d) := by
    intro d
    cases d <;> exact s.reply_touches _ _ _
  unfold lookUpEntitlement
  split
  all_goals exact touches.ite (s.reply_touches _ _ _) (h0 _)

theorem State.setBuffer_touches (s : State) (rc : ResultCode) (c : Byte) : touches [.result] s (s.setBuffer rc c) := by
  refine ⟨fun p hp => ?_, by simp [attentionKept, State.setBuffer]⟩
  cases p <;> first
    | exact rfl
    | exact And.intro rfl rfl
    | exact And.intro rfl (And.intro rfl rfl)
    | exact And.intro rfl (And.intro rfl (And.intro rfl rfl))
    | exact absurd (by decide) hp
    | simp [samePart, sameCarPart]

theorem execFrameError_touches (c : Byte) (s t : State) (h : execFrameError c s = .next t) :
    touches (partsOf (.frameError c)) s t := by
  cases h
  exact s.setBuffer_touches _ c

theorem execInvalid_touches (c : Byte) (s t : State) (h : execInvalid c s = .next t) :
    touches (partsOf (.invalid c)) s t := by
  cases h
  exact s.setBuffer_touches _ c

theorem State.setBusy_touches (s : State) (c : Byte) : touches [.result] s (s.setBusy c) := by
  refine ⟨fun p hp => ?_, by simp [attentionKept, State.setBusy]⟩
  cases p <;> first
    | exact rfl
    | exact And.intro rfl rfl
    | exact And.intro rfl (And.intro rfl rfl)
    | exact And.intro rfl (And.intro rfl (And.intro rfl rfl))
    | exact absurd (by decide) hp
    | simp [samePart, sameCarPart]

theorem execBusy_touches (c : Byte) (s t : State) (h : execBusy c s = .next t) : touches (partsOf (.busy c)) s t := by
  cases h
  exact touches.ite (s.setBusy_touches c) (touches.refl _ s)

theorem execSense_kept (p : Form NoArgs) (s t : State) (h : execSense p s = .next t) :
    keptBut (partsOf (.sense p)) s t := by
  cases p <;> cases h <;> simp only [partsOf] <;> intro p hp <;> cases p <;> first
    | exact absurd (by decide) hp
    | exact rfl
    | exact And.intro rfl rfl
    | exact And.intro rfl (And.intro rfl rfl)
    | exact And.intro rfl (And.intro rfl (And.intro rfl rfl))
    | simp [samePart, sameCarPart]

/-! ### Geometry and position -/

theorem State.setStaged_touches (s : State) (g : Geometry) : touches [.staged] s (s.setStaged g) := by
  refine ⟨fun p hp => ?_, by simp [attentionKept]⟩
  cases p <;> first
    | exact rfl
    | exact And.intro rfl rfl
    | exact And.intro rfl (And.intro rfl rfl)
    | exact And.intro rfl (And.intro rfl (And.intro rfl rfl))
    | exact absurd (by decide) hp
    | simp [samePart, sameCarPart]

theorem State.setActive_touches (s : State) (g : Geometry) : touches [.active] s (s.setActive g) := by
  refine ⟨fun p hp => ?_, by simp [attentionKept]⟩
  cases p <;> first
    | exact rfl
    | exact And.intro rfl rfl
    | exact And.intro rfl (And.intro rfl rfl)
    | exact And.intro rfl (And.intro rfl (And.intro rfl rfl))
    | exact absurd (by decide) hp
    | simp [samePart, sameCarPart]

theorem State.unreference_touches (s : State) (n : Nat) : touches [.position] s (s.unreference n) := by
  refine ⟨fun p hp => ?_, by simp [attentionKept]⟩
  cases p <;> first
    | exact rfl
    | exact And.intro rfl rfl
    | exact And.intro rfl (And.intro rfl rfl)
    | exact And.intro rfl (And.intro rfl (And.intro rfl rfl))
    | exact absurd (by decide) hp
    | simp [samePart, sameCarPart]

theorem State.fixPosition_touches (s : State) (n : Nat) : touches [.position] s (s.fixPosition n) := by
  refine ⟨fun p hp => ?_, by simp [attentionKept]⟩
  cases p <;> first
    | exact rfl
    | exact And.intro rfl rfl
    | exact And.intro rfl (And.intro rfl rfl)
    | exact And.intro rfl (And.intro rfl (And.intro rfl rfl))
    | exact absurd (by decide) hp
    | simp [samePart, sameCarPart]

theorem State.setDatum_touches (s : State) (k : Nat) (b : Bool) : touches [.datum] s (s.setDatum k b) := by
  refine ⟨fun p hp => ?_, by simp [attentionKept]⟩
  cases p <;> first
    | exact rfl
    | exact And.intro rfl rfl
    | exact And.intro rfl (And.intro rfl rfl)
    | exact And.intro rfl (And.intro rfl (And.intro rfl rfl))
    | exact absurd (by decide) hp
    | simp [samePart, sameCarPart]

theorem State.respan_touches (s : State) (n : Nat) : touches [.restrictions] s (s.respan n) := by
  refine ⟨fun p hp => ?_, by simp [attentionKept]⟩
  cases p <;> first
    | exact rfl
    | exact And.intro rfl rfl
    | exact And.intro rfl (And.intro rfl rfl)
    | exact And.intro rfl (And.intro rfl (And.intro rfl rfl))
    | exact absurd (by decide) hp
    | simp [samePart, sameCarPart]

theorem execWriteStagedHeader_touches (p : Form HeaderArgs) (s t : State) (h : execWriteStagedHeader p s = .next t) :
    touches (partsOf (.writeStagedHeader p)) s t := by
  refine withForm_touches h (by simp only [partsOf]; decide) fun x => ?_
  exact (s.setStaged_touches _).trans (State.reply_touches _ _ _ _)

theorem execWriteStagedStation_touches (p : Form StationArgs) (s t : State)
    (h : execWriteStagedStation p s = .next t) : touches (partsOf (.writeStagedStation p)) s t := by
  refine withForm_touches h (by simp only [partsOf]; decide) fun x => ?_
  simp only [writeStagedStation]
  repeat' split
  all_goals first
    | exact (s.reply_touches _ _ _).mono (by simp only [partsOf]; decide)
    | exact (s.setStaged_touches _).trans (State.reply_touches _ _ _ _)

theorem execWriteStagedSegment_touches (p : Form SegmentArgs) (s t : State)
    (h : execWriteStagedSegment p s = .next t) : touches (partsOf (.writeStagedSegment p)) s t := by
  refine withForm_touches h (by simp only [partsOf]; decide) fun x => ?_
  simp only [writeStagedSegment]
  repeat' split
  all_goals first
    | exact (s.reply_touches _ _ _).mono (by simp only [partsOf]; decide)
    | exact (s.setStaged_touches _).trans (State.reply_touches _ _ _ _)

/-! ### The monitor's slots -/

theorem State.writeWindSlot_touches (s : State) (k : Nat) : touches [.restrictions] s (s.writeWindSlot k) := by
  unfold State.writeWindSlot
  split <;> exact s.setEntry_touches _ _

theorem State.writeWind_touches (s : State) : touches [.restrictions] s s.writeWind :=
  touches.ite (touches.foldl _ State.writeWindSlot_touches _ s) (touches.refl _ s)

theorem State.freeWind_touches (s : State) : touches [.restrictions] s s.freeWind :=
  touches.foldl _ (fun t k => t.setEntry_touches k none) _ s

theorem State.writeFrost_touches (s : State) : touches [.restrictions] s s.writeFrost :=
  touches.ite (s.setEntry_touches 5 _) (touches.refl _ s)

theorem State.rewriteSlots_touches (s : State) : touches [.restrictions] s s.rewriteSlots := by
  unfold State.rewriteSlots
  exact (touches.ite s.writeWind_touches s.freeWind_touches).step
    (touches.ite (State.writeFrost_touches _) (State.setEntry_touches _ 5 none))

theorem execCommitGeometry_touches (p : Form NoArgs) (s t : State) (h : execCommitGeometry p s = .next t) :
    touches (partsOf (.commitGeometry p)) s t := by
  refine withForm_touches h (by simp only [partsOf]; decide) fun _ => ?_
  simp only [commitGeometry]
  refine touches.ite ((s.reply_touches _ _ _).mono (by simp only [partsOf]; decide)) ?_
  split
  · exact (s.reply_touches _ _ _).mono (by simp only [partsOf]; decide)
  · exact ((((((s.setActive_touches _).trans (State.unreference_touches _ _)).trans (State.respan_touches _ _)).trans
      (State.rewriteSlots_touches _)).trans (State.deriveBoarding_touches _)).trans
      (State.reply_touches _ _ _ _)).mono (by simp only [partsOf]; decide)

theorem State.setInspection_touches (s : State) (b : Bool) :
    touches [.inspection, .boarding, .attention] s (s.setInspection b) := by
  have h0 : touches [.inspection, .boarding] s
      { s with geo := { s.geo with inspection := b }, adm := { s.adm with broadcastPending := true } } := by
    refine ⟨fun p hp => ?_, by simp [attentionKept]⟩
    cases p <;> first
      | exact rfl
      | exact And.intro rfl rfl
      | exact And.intro rfl (And.intro rfl rfl)
      | exact And.intro rfl (And.intro rfl (And.intro rfl rfl))
      | exact absurd (by decide) hp
      | simp [samePart, sameCarPart]
  exact ((h0.trans (State.raise_touches _ _)).trans (State.deriveBoarding_touches _)).mono (by decide)

theorem execEnterInspection_touches (p : Form NoArgs) (s t : State) (h : execEnterInspection p s = .next t) :
    touches (partsOf (.enterInspection p)) s t := by
  refine withForm_touches h (by simp only [partsOf]; decide) fun _ => ?_
  exact touches.ite (((s.setInspection_touches true).trans (State.reply_touches _ _ _ _)).mono (by simp only [partsOf]; decide))
    ((s.reply_touches _ _ _).mono (by simp only [partsOf]; decide))

theorem execLeaveInspection_touches (p : Form NoArgs) (s t : State) (h : execLeaveInspection p s = .next t) :
    touches (partsOf (.leaveInspection p)) s t := by
  refine withForm_touches h (by simp only [partsOf]; decide) fun _ => ?_
  exact touches.ite ((s.reply_touches _ _ _).mono (by simp only [partsOf]; decide))
    (touches.ite (((s.setInspection_touches false).trans (State.reply_touches _ _ _ _)).mono (by simp only [partsOf]; decide))
      ((s.reply_touches _ _ _).mono (by simp only [partsOf]; decide)))

theorem execHome_touches (p : Form Byte) (s t : State) (h : execHome p s = .next t) :
    touches (partsOf (.home p)) s t := by
  refine withForm_touches h (by simp only [partsOf]; decide) fun x => ?_
  unfold home
  repeat' split
  all_goals first
    | exact (s.fixPosition_touches _).trans (State.reply_touches _ _ _ _)
    | exact (s.refuse_touches _ _).mono (by simp only [partsOf]; decide)
    | exact (s.reply_touches _ _ _).mono (by simp only [partsOf]; decide)

theorem State.positionFault_touches (s : State) : touches (.position :: haltParts) s s.positionFault := by
  have h0 : touches [.position] s { s with geo := { s.geo with referenced := false } } := by
    refine ⟨fun p hp => ?_, by simp [attentionKept]⟩
    cases p <;> first
      | exact rfl
      | exact And.intro rfl rfl
      | exact And.intro rfl (And.intro rfl rfl)
      | exact And.intro rfl (And.intro rfl (And.intro rfl rfl))
      | exact absurd (by decide) hp
      | simp [samePart, sameCarPart]
  exact ((h0.trans (State.raise_touches _ _)).trans (State.haltEvent_touches _ _)).mono (by decide)

theorem State.takeDatum_touches (s : State) (n : Nat) : touches (.position :: haltParts) s (s.takeDatum n) := by
  have hf : ∀ m, touches (.position :: haltParts) s (s.fixPosition m) := fun m =>
    (s.fixPosition_touches m).mono (by decide)
  unfold State.takeDatum
  repeat' split
  all_goals first
    | exact hf _
    | exact s.positionFault_touches
    | exact touches.refl _ s

set_option maxRecDepth 8000 in
theorem execDatumEdge_touches (k : Fin 4) (s t : State) (h : execDatumEdge k s = .next t) :
    touches (partsOf (.datumEdge k)) s t := by
  cases h
  refine touches.ite (touches.refl _ s) (touches.ite ?_ ((s.setDatum_touches _ _).mono (by simp only [partsOf]; decide)))
  exact (((((s.setDatum_touches _ _).trans (State.takeDatum_touches _ _)).trans (State.testBerthed_touches _ .a)).trans
    (State.testBerthed_touches _ .b)).trans (State.deriveBoarding_touches _)).mono (by simp only [partsOf]; decide)

theorem execDatumLevelInactive_touches (k : Fin 4) (s t : State) (h : execDatumLevelInactive k s = .next t) :
    touches (partsOf (.datumLevelInactive k)) s t := by
  cases h
  exact s.setDatum_touches _ _

end Sys2Proof.Machine
end

