-- ==== Sys2Proof/Laws/CommandsLine.lean ====
section
/-! SUPPORT. What each command may change, continued: haul, supervision, speed, stops, gates. -/

namespace Sys2Proof.Machine

set_option Elab.async false

/-! ### Haul -/

theorem execUnpark_touches (p : Form NoArgs) (s t : State) (h : execUnpark p s = .next t) :
    touches (partsOf (.unpark p)) s t := by
  refine withForm_touches h (by simp only [partsOf]; decide) fun _ => ?_
  unfold unpark
  iterate 6 refine touches.ite (((s.reply_touches _ _ _)).mono (by simp only [partsOf]; decide)) ?_
  split
  · exact (((s.enterDwell_touches _).trans (State.deriveBoarding_touches _)).trans (State.reply_touches _ _ _ _)).mono
      (by simp only [partsOf]; decide)
  · exact (((s.enterHalted_touches _).trans (State.deriveBoarding_touches _)).trans (State.reply_touches _ _ _ _)).mono
      (by simp only [partsOf]; decide)

theorem execPark_touches (p : Form NoArgs) (s t : State) (h : execPark p s = .next t) :
    touches (partsOf (.park p)) s t := by
  refine withForm_touches h (by simp only [partsOf]; decide) fun _ => ?_
  unfold park
  iterate 3 refine touches.ite (((s.reply_touches _ _ _)).mono (by simp only [partsOf]; decide)) ?_
  exact ((s.enterParked_touches.trans (State.deriveBoarding_touches _)).trans (State.reply_touches _ _ _ _)).mono
    (by simp only [partsOf]; decide)

theorem State.enterStarting_touches (s : State) (r : RunRecord) :
    touches ([.run, .haltCause, .direction, .thresholds] ++ compareParts ++ [.boarding]) s (s.enterStarting r) := by
  have h0 : ∀ (u : State) b d, touches [.direction, .torque] u
      { u with haul := { u.haul with driveDirHigh := b, torqueDue := d } } := by
    intro u b d
    refine ⟨fun p hp => ?_, by simp [attentionKept]⟩
    cases p <;> first
      | exact rfl
      | exact And.intro rfl rfl
      | exact And.intro rfl (And.intro rfl rfl)
      | exact absurd (by decide) hp
      | simp [samePart, sameCarPart]
  exact ((((((((s.setRun_touches _).trans (State.setLine_touches _ _)).trans (State.setHalt_touches _ _)).trans
    (h0 _ _ _)).trans (State.setPerm_touches _ _)).trans (State.publishSup_touches _ _)).trans
    (State.compareRollback_touches _)).trans (State.deriveBoarding_touches _)).mono (by decide)

theorem execStartRun_touches (p : Form RunArgs) (s t : State) (h : execStartRun p s = .next t) :
    touches (partsOf (.startRun p)) s t := by
  refine withForm_touches h (by simp only [partsOf]; decide) fun x => ?_
  simp only [startRun]
  iterate 8 refine touches.ite (((s.reply_touches _ _ _)).mono (by simp only [partsOf]; decide)) ?_
  split
  · exact ((s.refuse_touches _ _)).mono (by simp only [partsOf]; decide)
  · exact ((s.enterStarting_touches _).trans (State.reply_touches _ _ _ _)).mono (by simp only [partsOf]; decide)

theorem execStopRun_touches (p : Form NoArgs) (s t : State) (h : execStopRun p s = .next t) :
    touches (partsOf (.stopRun p)) s t := by
  refine withForm_touches h (by simp only [partsOf]; decide) fun _ => ?_
  unfold stopRun
  refine touches.ite ?_ (touches.ite ((s.reply_touches _ _ _).mono (by simp only [partsOf]; decide))
    ((s.reply_touches _ _ _).mono (by simp only [partsOf]; decide)))
  exact (((s.enterHalted_touches _).trans (State.deriveBoarding_touches _)).trans (State.reply_touches _ _ _ _)).mono
    (by simp only [partsOf]; decide)

theorem execResume_touches (p : Form NoArgs) (s t : State) (h : execResume p s = .next t) :
    touches (partsOf (.resume p)) s t := by
  refine withForm_touches h (by simp only [partsOf]; decide) fun _ => ?_
  unfold resume
  refine touches.ite (((s.reply_touches _ _ _)).mono (by simp only [partsOf]; decide)) ?_
  split
  · exact ((s.refuse_touches _ _)).mono (by simp only [partsOf]; decide)
  · iterate 5 refine touches.ite (((s.refuse_touches _ _)).mono (by simp only [partsOf]; decide)) ?_
    split
    · exact ((s.refuse_touches _ _)).mono (by simp only [partsOf]; decide)
    · exact ((s.enterStarting_touches _).trans (State.reply_touches _ _ _ _)).mono (by simp only [partsOf]; decide)

theorem execTorqueReady_touches (s t : State) (h : execTorqueReady s = .next t) :
    touches (partsOf .torqueReady) s t := by
  cases h
  have h0 : touches [.torque] s { s with haul := { s.haul with torqueReady := true } } := by
    refine ⟨fun p hp => ?_, by simp [attentionKept]⟩
    cases p <;> first
      | exact rfl
      | exact And.intro rfl rfl
      | exact And.intro rfl (And.intro rfl rfl)
      | exact absurd (by decide) hp
      | simp [samePart, sameCarPart]
  refine touches.ite (touches.refl _ s) (touches.ite ?_ (h0.mono (by decide)))
  exact ((((h0.trans (State.stopTorque_touches _)).trans (State.discardRecords_touches _)).trans
    (State.setLine_touches _ _)).trans (State.deriveBoarding_touches _)).mono (by decide)

theorem execTorqueReadyInactive_touches (s t : State) (h : execTorqueReadyInactive s = .next t) :
    touches (partsOf .torqueReadyInactive) s t := by
  cases h
  refine ⟨fun p hp => ?_, by simp [attentionKept]⟩
  cases p <;> first
    | exact rfl
    | exact And.intro rfl rfl
    | exact And.intro rfl (And.intro rfl rfl)
    | exact absurd (by decide) hp
    | simp [samePart, sameCarPart]

theorem State.endStart_touches (s : State) (a b : HaltCause) : touches transitionParts s (s.endStart a b) := by
  unfold State.endStart
  split
  · exact touches.ite (s.returnToDwell_touches a) ((s.enterHalted_touches b).mono (by decide))
  · exact (s.enterHalted_touches b).mono (by decide)

theorem execTorqueReadyTimeout_touches (s t : State) (h : execTorqueReadyTimeout s = .next t) :
    touches (partsOf .torqueReadyTimeout) s t := by
  cases h
  refine onExpiry_touches _ s _ (by decide) fun u => ?_
  exact ((u.stopTorque_touches.trans (State.endStart_touches _ _ _)).trans (State.deriveBoarding_touches _)).mono
    (by decide)

theorem State.haulStep_touches (s : State) :
    touches ([.thresholds, .haltCause] ++ compareParts ++ lapseParts) s s.haulStep := by
  have h0 : ∀ (u : State) d, touches [.speeds] u { u with haul := { u.haul with vDem := d, rampFrom := d } } := by
    intro u d
    refine ⟨fun p hp => ?_, by simp [attentionKept]⟩
    cases p <;> first
      | exact rfl
      | exact And.intro rfl rfl
      | exact And.intro rfl (And.intro rfl rfl)
      | exact absurd (by decide) hp
      | simp [samePart, sameCarPart]
  have h1 : touches ([.thresholds, .haltCause] ++ compareParts ++ lapseParts) s
      (if s.arrivedUnreferenced then s.enterHalted .notReferenced else s) :=
    touches.ite ((s.enterHalted_touches _).mono (by decide)) (touches.refl _ s)
  simp only [State.haulStep]
  refine h1.step ?_
  generalize (if s.arrivedUnreferenced = true then s.enterHalted .notReferenced else s) = u
  have h2 := ((u.publishSup_touches (u.nextSup u.permitted)).trans (State.setPerm_touches _ u.permitted)).trans
    (h0 _ (u.nextDem u.permitted))
  exact touches.ite ((h2.trans (State.compareWith_touches _ _)).mono (by decide))
    ((h2.trans (State.compare_touches _)).mono (by decide))

theorem execHaulSample_touches (s t : State) (h : execHaulSample s = .next t) :
    touches (partsOf .haulSample) s t := by
  cases h
  have h0 : ∀ (u : State) d, touches [.haulTimer] u { u with haul := { u.haul with haulDue := d } } := by
    intro u d
    refine ⟨fun p hp => ?_, by simp [attentionKept]⟩
    cases p <;> first
      | exact rfl
      | exact And.intro rfl rfl
      | exact And.intro rfl (And.intro rfl rfl)
      | exact And.intro rfl (And.intro rfl (And.intro rfl rfl))
      | exact absurd (by decide) hp
      | simp [samePart, sameCarPart]
  exact ((((s.advance_touches _).trans (h0 _ _)).trans (State.haulStep_touches _)).trans
    (State.deriveBoarding_touches _)).mono (by decide)

theorem execPwmPeriod_touches (s t : State) (h : execPwmPeriod s = .next t) :
    touches (partsOf .pwmPeriod) s t := by
  cases h
  refine ⟨fun p hp => ?_, by simp [attentionKept]⟩
  cases p <;> first
    | exact rfl
    | exact And.intro rfl rfl
    | exact And.intro rfl (And.intro rfl rfl)
    | exact And.intro rfl (And.intro rfl (And.intro rfl rfl))
    | exact absurd (by decide) hp
    | simp [samePart, sameCarPart]

/-! ### Supervision -/

theorem execEmergencyStop_touches (p : Form NoArgs) (s t : State) (h : execEmergencyStop p s = .next t) :
    touches (partsOf (.emergencyStop p)) s t := by
  refine withForm_touches h (by simp only [partsOf]; decide) fun _ => ?_
  exact (((s.takeCause_touches _).trans (State.deriveBoarding_touches _)).trans (State.reply_touches _ _ _ _)).mono
    (by simp only [partsOf]; decide)

theorem execEmergencyStopInput_touches (b : Bool) (s t : State) (h : execEmergencyStopInput b s = .next t) :
    touches (partsOf (.emergencyStopInput b)) s t := by
  cases h
  have h0 : touches [.inputs] s { s with osb := { s.osb with estop := b } } := by
    refine ⟨fun p hp => ?_, by simp [attentionKept]⟩
    cases p <;> first
      | exact rfl
      | exact And.intro rfl rfl
      | exact And.intro rfl (And.intro rfl rfl)
      | exact And.intro rfl (And.intro rfl (And.intro rfl rfl))
      | exact absurd (by decide) hp
      | simp [samePart, sameCarPart]
  exact touches.ite (touches.refl _ s) (touches.ite
    (((h0.trans (State.takeCause_touches _ _)).trans (State.deriveBoarding_touches _)).mono
      (by simp only [partsOf]; decide)) (h0.mono (by simp only [partsOf]; decide)))

theorem execDriveFaultInput_touches (b : Bool) (s t : State) (h : execDriveFaultInput b s = .next t) :
    touches (partsOf (.driveFaultInput b)) s t := by
  cases h
  have h0 : touches [.inputs] s { s with osb := { s.osb with driveFault := b } } := by
    refine ⟨fun p hp => ?_, by simp [attentionKept]⟩
    cases p <;> first
      | exact rfl
      | exact And.intro rfl rfl
      | exact And.intro rfl (And.intro rfl rfl)
      | exact And.intro rfl (And.intro rfl (And.intro rfl rfl))
      | exact absurd (by decide) hp
      | simp [samePart, sameCarPart]
  exact touches.ite (touches.refl _ s) (touches.ite
    (((h0.trans (State.takeCause_touches _ _)).trans (State.deriveBoarding_touches _)).mono
      (by simp only [partsOf]; decide)) (h0.mono (by simp only [partsOf]; decide)))

theorem execTripResetTime_touches (s t : State) (h : execTripResetTime s = .next t) :
    touches (partsOf .tripResetTime) s t := by
  cases h
  refine onExpiry_touches _ s _ (by decide) fun u => ⟨fun p hp => ?_, by simp [attentionKept]⟩
  cases p <;> first
    | exact rfl
    | exact And.intro rfl rfl
    | exact And.intro rfl (And.intro rfl rfl)
    | exact And.intro rfl (And.intro rfl (And.intro rfl rfl))
    | exact absurd (by decide) hp
    | simp [samePart, sameCarPart]

theorem State.clearLatch_touches (s : State) : touches [.latch, .hold, .resetWait] s s.clearLatch := by
  refine ⟨fun p hp => ?_, by simp [attentionKept]⟩
  cases p <;> first
    | exact rfl
    | exact And.intro rfl rfl
    | exact And.intro rfl (And.intro rfl rfl)
    | exact And.intro rfl (And.intro rfl (And.intro rfl rfl))
    | exact absurd (by decide) hp
    | simp [samePart, sameCarPart]

set_option maxRecDepth 4000 in
theorem State.leaveTripped_touches (s : State) :
    touches (transitionParts ++ [.latch, .hold, .resetWait]) s s.leaveTripped := by
  simp only [State.leaveTripped]
  split
  · refine touches.ite ?_ ?_
    · exact ((((((((s.clearLatch_touches).trans (State.setLine_touches _ _)).trans (State.dwellSpeeds_touches _)).trans
        (State.setSuspended_touches _ _)).trans (State.moveAlarm_touches _ .a)).trans (State.moveAlarm_touches _ .b)).trans
        (State.testBerthed_touches _ .a)).trans (State.testBerthed_touches _ .b)).mono (by decide)
    · exact (((((s.clearLatch_touches).trans (State.setLine_touches _ _)).trans (State.dwellSpeeds_touches _)).trans
        (State.discardRecords_touches _)).trans (State.createRecords_touches _ _)).mono (by decide)
  · exact ((s.clearLatch_touches).trans (State.enterHalted_touches _ _)).mono (by decide)

theorem execResetTrip_touches (p : Form NoArgs) (s t : State) (h : execResetTrip p s = .next t) :
    touches (partsOf (.resetTrip p)) s t := by
  refine withForm_touches h (by simp only [partsOf]; decide) fun _ => ?_
  have h0 : touches [.latch] s { s with osb := { s.osb with further := 0 } } := by
    refine ⟨fun p hp => ?_, by simp [attentionKept]⟩
    cases p <;> first
      | exact rfl
      | exact And.intro rfl rfl
      | exact And.intro rfl (And.intro rfl rfl)
      | exact And.intro rfl (And.intro rfl (And.intro rfl rfl))
      | exact absurd (by decide) hp
      | simp [samePart, sameCarPart]
  unfold resetTrip
  split
  · split
    · exact (s.refuse_touches _ _).mono (by simp only [partsOf]; decide)
    · exact ((s.leaveTripped_touches.trans (State.deriveBoarding_touches _)).trans (State.reply_touches _ _ _ _)).mono
        (by simp only [partsOf]; decide)
  · exact touches.ite ((s.refuse_touches _ _).mono (by simp only [partsOf]; decide))
      ((h0.trans (State.reply_touches _ _ _ _)).mono (by simp only [partsOf]; decide))
  all_goals exact (s.reply_touches _ _ _).mono (by simp only [partsOf]; decide)

/-! ### Soft reset and power-on reset -/

theorem execSoftReset_kept (p : Form NoArgs) (s t : State) (h : execSoftReset p s = .next t) :
    keptBut (partsOf (.softReset p)) s t := by
  have ha : ∀ (u : State) m, keptBut [.attention] u (u.setAttention m) := by
    intro u m p hp
    cases p <;> first
      | exact rfl
      | exact And.intro rfl rfl
      | exact And.intro rfl (And.intro rfl rfl)
      | exact And.intro rfl (And.intro rfl (And.intro rfl rfl))
      | exact absurd (by decide) hp
      | simp [samePart, sameCarPart]
  have hh : ∀ u : State, touches [.loads, .speeds, .pwm] u u.resetHaul := by
    intro u
    refine ⟨fun p hp => ?_, by simp [attentionKept]⟩
    cases p <;> first
      | exact rfl
      | exact And.intro rfl rfl
      | exact And.intro rfl (And.intro rfl rfl)
      | exact absurd (by decide) hp
      | simp [samePart, sameCarPart]
  have ho : ∀ u : State, touches [.interventions, .latch, .hold, .resetWait] u u.resetOsb := by
    intro u
    refine ⟨fun p hp => ?_, by simp [attentionKept]⟩
    cases p <;> first
      | exact rfl
      | exact And.intro rfl rfl
      | exact And.intro rfl (And.intro rfl rfl)
      | exact absurd (by decide) hp
      | simp [samePart, sameCarPart]
  have hs : ∀ u : State, touches [.alarms] u u.resetStp := by
    intro u
    refine ⟨fun p hp => ?_, by simp [attentionKept]⟩
    cases p <;> first
      | exact rfl
      | exact And.intro rfl rfl
      | exact And.intro rfl (And.intro rfl rfl)
      | exact absurd (by decide) hp
      | simp [samePart, sameCarPart, State.resetStp]
  have hr : keptBut (partsOf (.softReset p)) s (s.softReset.reply 0x83 .ok []) := by
    have h1 : touches (partsOf (.softReset p)) s
        ((((((s.clearClaims).enterParked).resetHaul).resetOsb).resetStp).deriveBoarding) :=
      ((((((s.clearClaims_touches).trans (State.enterParked_touches _)).trans (hh _)).trans (ho _)).trans (hs _)).trans
        (State.deriveBoarding_touches _)).mono (by simp only [partsOf]; decide)
    intro q hq
    have hq1 : q ∉ [Part.attention] := fun k => hq (by simp at k; subst k; simp only [partsOf]; decide)
    have hq2 : q ∉ [Part.result] := fun k => hq (by simp at k; subst k; simp only [partsOf]; decide)
    exact ((h1.1 q hq).trans (ha _ _ q hq1)).trans ((State.reply_touches _ _ _ _).1 q hq2)
  have hk : ∀ c rc d, keptBut (partsOf (.softReset p)) s (s.reply c rc d) := fun c rc d =>
    ((s.reply_touches c rc d).mono (by simp only [partsOf]; decide)).1
  cases p with
  | wrongLength =>
    cases h
    exact hk _ _ _
  | fields x =>
    cases h
    unfold softReset
    split
    · exact hr
    · split
      · exact hr
      · exact hk _ _ _
    · split
      · exact hr
      · exact hk _ _ _
    all_goals exact hk _ _ _

end Sys2Proof.Machine
end

