-- ==== Sys2Proof/Laws/CommandsCars.lean ====
section
/-! SUPPORT. What each command may change, continued: speed channels, monitor, stops, entitlements, gates. -/

namespace Sys2Proof.Machine

set_option Elab.async false

/-! ### Speed channels -/

theorem State.setChan_touches (s : State) (ch : Channel) (c : SpeedChannel) :
    touches [.rope, .drive] s (s.setChan ch c) := by
  refine ⟨fun p hp => ?_, by simp [attentionKept]⟩
  cases ch <;> cases p <;> first
    | exact rfl
    | exact And.intro rfl rfl
    | exact And.intro rfl (And.intro rfl rfl)
    | exact And.intro rfl (And.intro rfl (And.intro rfl rfl))
    | exact absurd (by decide) hp
    | simp [samePart, sameCarPart]

theorem State.countRope_touches (s : State) (b : Bool) : touches [.position] s (s.countRope b) := by
  refine ⟨fun p hp => ?_, by simp [attentionKept]⟩
  cases p <;> first
    | exact rfl
    | exact And.intro rfl rfl
    | exact And.intro rfl (And.intro rfl rfl)
    | exact And.intro rfl (And.intro rfl (And.intro rfl rfl))
    | exact absurd (by decide) hp
    | simp [samePart, sameCarPart]

theorem State.slipTest_touches (s : State) : touches [.slip] s s.slipTest := by
  have h0 : ∀ a b c, touches [.slip] s { s with spd := { s.spd with slip := a, slipDue := b, slipPositive := c } } := by
    intro a b c
    refine ⟨fun p hp => ?_, by simp [attentionKept]⟩
    cases p <;> first
      | exact rfl
      | exact And.intro rfl rfl
      | exact And.intro rfl (And.intro rfl rfl)
      | exact absurd (by decide) hp
      | simp [samePart, sameCarPart]
  simp only [State.slipTest]
  refine touches.ite (h0 .absent none s.spd.slipPositive) ?_
  split
  · exact h0 s.spd.slip _ _
  · exact touches.ite (touches.refl _ s) (h0 s.spd.slip _ _)
  · exact touches.refl _ s
  · exact touches.refl _ s

theorem State.publish_touches (s : State) (ch : Channel) :
    touches ([.speed, .slip] ++ compareParts) s (s.publish ch) := by
  have h0 : ∀ v, touches [.speed] s { s with spd := { s.spd with vMeas := v } } := by
    intro v
    refine ⟨fun p hp => ?_, by simp [attentionKept]⟩
    cases p <;> first
      | exact rfl
      | exact And.intro rfl rfl
      | exact And.intro rfl (And.intro rfl rfl)
      | exact absurd (by decide) hp
      | simp [samePart, sameCarPart]
  simp only [State.publish]
  cases ch
  · exact (((h0 _).trans (State.slipTest_touches _)).trans (State.compareRollback_touches _)).mono (by decide)
  · exact (((h0 _).trans (State.slipTest_touches _)).trans (State.compare_touches _)).mono (by decide)

theorem State.leaveRest_touches (s b : State) : touches compareParts s (s.leaveRest b) := by
  have h0 : touches [.resetWait] s { s with osb := { s.osb with resetDue := none, resetElapsed := false } } := by
    refine ⟨fun p hp => ?_, by simp [attentionKept]⟩
    cases p <;> first
      | exact rfl
      | exact And.intro rfl rfl
      | exact And.intro rfl (And.intro rfl rfl)
      | exact absurd (by decide) hp
      | simp [samePart, sameCarPart]
  have h1 := h0.trans (State.endEvacuations_touches _)
  simp only [State.leaveRest]
  split
  · exact (h1.trans (State.takeBoth_touches _ _ _)).mono (by decide)
  · exact (h1.trans (State.takeCause_touches _ _)).mono (by decide)
  · exact (h1.trans (State.takeCause_touches _ _)).mono (by decide)
  · exact h1.mono (by decide)

/-- The parts that a counting edge may change. -/
abbrev edgeParts : List Part := [.time, .rope, .drive, .position, .speed, .rest, .slip, .boarding] ++ compareParts

theorem State.takeCountingEdge_touches (s : State) (ch : Channel) (b : Bool) :
    touches edgeParts s (s.takeCountingEdge ch b) := by
  have h0 : ∀ u : State, touches [.rest] u { u with spd := { u.spd with restDue := none, restSince := none } } := by
    intro u
    refine ⟨fun p hp => ?_, by simp [attentionKept]⟩
    cases p <;> first
      | exact rfl
      | exact And.intro rfl rfl
      | exact And.intro rfl (And.intro rfl rfl)
      | exact absurd (by decide) hp
      | simp [samePart, sameCarPart]
  simp only [State.takeCountingEdge]
  refine touches.step ?_ ((State.deriveBoarding_touches _).mono (by decide))
  have h1 : touches edgeParts s (if ch = .rope then s.countRope b else s) :=
    touches.ite ((s.countRope_touches b).mono (by decide)) (touches.refl _ s)
  refine h1.step ?_
  generalize (if ch = Channel.rope then s.countRope b else s) = u
  have h2 := ((u.setChan_touches ch ((u.chan ch).onEdge b s.now (s.par (pulseParam ch)) (s.par 0x22))).trans
    (h0 _)).mono (b := edgeParts) (by decide)
  refine h2.step ?_
  generalize ({ (u.setChan ch _) with spd := _ } : State) = v
  have h3 : touches edgeParts v (if s.atRest = true then v.leaveRest s else v) :=
    touches.ite ((v.leaveRest_touches s).mono (by decide)) (touches.refl _ v)
  refine h3.step ?_
  exact touches.ite (touches.refl _ _) ((State.publish_touches _ ch).mono (by decide))

theorem State.phaseChange_touches (s : State) (ch : Channel) (ph : QuadPhase) (b : Bool) (n : Nat) :
    touches edgeParts s (s.phaseChange ch ph b n) := by
  have h1 : touches edgeParts s (s.advance n) := (s.advance_touches n).mono (by decide)
  simp only [State.phaseChange]
  refine h1.step ?_
  generalize s.advance n = u
  have h2 : ∀ c, touches edgeParts u (u.setChan ch c) := fun c => (u.setChan_touches ch c).mono (by decide)
  cases ph
  · dsimp only
    split
    · exact touches.refl _ u
    · split
      · exact touches.refl _ u
      · split
        · exact h2 _
        · refine touches.step ?_ (State.takeCountingEdge_touches _ ch b)
          exact h2 _
  · dsimp only
    split
    · exact touches.refl _ u
    · split
      · exact touches.refl _ u
      · exact h2 _

theorem execCountingEdge_touches (ch : Channel) (b : Bool) (n : Nat) (s t : State)
    (h : execCountingEdge ch b n s = .next t) : touches (partsOf (.countingEdge ch b n)) s t := by
  cases h
  exact s.phaseChange_touches ch .a b n

theorem execTakenPhaseEdge_touches (ch : Channel) (ph : QuadPhase) (b : Bool) (n : Nat) (s t : State)
    (h : execTakenPhaseEdge ch ph b n s = .next t) : touches (partsOf (.takenPhaseEdge ch ph b n)) s t := by
  cases h
  exact s.phaseChange_touches ch ph b n

theorem State.startRestTimer_touches (s : State) : touches [.rest] s s.startRestTimer := by
  have h0 : ∀ d, touches [.rest] s { s with spd := { s.spd with restDue := d } } := by
    intro d
    refine ⟨fun p hp => ?_, by simp [attentionKept]⟩
    cases p <;> first
      | exact rfl
      | exact And.intro rfl rfl
      | exact And.intro rfl (And.intro rfl rfl)
      | exact absurd (by decide) hp
      | simp [samePart, sameCarPart]
  exact touches.ite (h0 _) (touches.refl _ s)

theorem execStandstillTimeout_touches (ch : Channel) (s t : State) (h : execStandstillTimeout ch s = .next t) :
    touches (partsOf (.standstillTimeout ch)) s t := by
  cases h
  refine onExpiry_touches _ s _ (by simp only [partsOf]; decide) fun u => ?_
  exact ((((u.setChan_touches ch _).trans (State.publish_touches _ ch)).trans (State.startRestTimer_touches _)).trans
    (State.deriveBoarding_touches _)).mono (by simp only [partsOf]; decide)

theorem State.comeToRest_touches (s : State) : touches transitionParts s s.comeToRest := by
  unfold State.comeToRest
  split
  · exact s.enterDwell_touches _
  · exact s.enterDwell_touches _
  · exact s.enterDwell_touches _
  · exact (s.enterHalted_touches _).mono (by decide)
  · exact (s.enterHalted_touches _).mono (by decide)
  · exact touches.refl _ s

theorem execRestConfirm_touches (s t : State) (h : execRestConfirm s = .next t) :
    touches (partsOf .restConfirm) s t := by
  cases h
  refine onExpiry_touches _ s _ (by decide) fun u => ?_
  have h0 : ∀ d, touches [.rest] u { u with spd := { u.spd with restDue := none, restSince := d } } := by
    intro d
    refine ⟨fun p hp => ?_, by simp [attentionKept]⟩
    cases p <;> first
      | exact rfl
      | exact And.intro rfl rfl
      | exact And.intro rfl (And.intro rfl rfl)
      | exact absurd (by decide) hp
      | simp [samePart, sameCarPart]
  have h1 := (h0 (some u.now)).mono (b := partsOf .restConfirm) (by decide)
  refine h1.step ?_
  generalize ({ u with spd := _ } : State) = v
  have h2 : touches (partsOf .restConfirm) v (if v.haul.line = .tripped then v.beginWait else v.comeToRest) :=
    touches.ite (v.beginWait_touches.mono (by decide)) (v.comeToRest_touches.mono (by decide))
  refine h2.step ?_
  exact (((State.testBerthed_touches _ .a).trans (State.testBerthed_touches _ .b)).trans
    (State.deriveBoarding_touches _)).mono (by decide)

theorem execSlipTimerExpiry_touches (s t : State) (h : execSlipTimerExpiry s = .next t) :
    touches (partsOf .slipTimerExpiry) s t := by
  cases h
  refine onExpiry_touches _ s _ (by decide) fun u => ?_
  have h0 : ∀ x, touches [.slip] u { u with spd := { u.spd with slipDue := none, slip := x } } := by
    intro x
    refine ⟨fun p hp => ?_, by simp [attentionKept]⟩
    cases p <;> first
      | exact rfl
      | exact And.intro rfl rfl
      | exact And.intro rfl (And.intro rfl rfl)
      | exact absurd (by decide) hp
      | simp [samePart, sameCarPart]
  exact (((h0 _).trans (State.takeCause_touches _ _)).trans (State.deriveBoarding_touches _)).mono (by decide)

/-! ### Monitor -/

theorem State.setMonChannel_touches (s : State) (ch : MonChannel) (c : MonChannelState) :
    touches [.monitor] s (s.setMonChannel ch c) := by
  refine ⟨fun p hp => ?_, by simp [attentionKept]⟩
  cases ch <;> cases p <;> first
    | exact rfl
    | exact And.intro rfl rfl
    | exact And.intro rfl (And.intro rfl rfl)
    | exact And.intro rfl (And.intro rfl (And.intro rfl rfl))
    | exact absurd (by decide) hp
    | simp [samePart, sameCarPart]

theorem State.setCond_touches (s : State) (k : CondId) (c : Cond) : touches [.monitor] s (s.setCond k c) := by
  refine ⟨fun p hp => ?_, by simp [attentionKept]⟩
  cases k <;> cases p <;> first
    | exact rfl
    | exact And.intro rfl rfl
    | exact And.intro rfl (And.intro rfl rfl)
    | exact And.intro rfl (And.intro rfl (And.intro rfl rfl))
    | exact absurd (by decide) hp
    | simp [samePart, sameCarPart]

/-- The parts that a monitor sample may change, but for the time. -/
abbrev sampleParts : List Part := [.monitor, .restrictions, .latch, .hold, .resetWait, .boarding] ++ haltParts

theorem State.raiseCond_touches (s : State) (k : CondId) : touches sampleParts s (s.raiseCond k) := by
  have h := ((s.setCond_touches k ⟨true, 0, 0⟩).trans (State.raise_touches _ .monitor)).mono (b := sampleParts)
    (by decide)
  refine h.step ?_
  unfold State.raiseCond State.raiseEffect
  cases k
  · exact (State.writeWind_touches _).mono (by decide)
  · exact touches.refl _ _
  · exact (State.writeFrost_touches _).mono (by decide)
  · exact touches.refl _ _
  · exact touches.refl _ _
  · exact (State.takeCause_touches _ _).mono (by decide)
  · exact (State.haltEvent_touches _ _).mono (by decide)

theorem State.clearCond_touches (s : State) (k : CondId) : touches sampleParts s (s.clearCond k) := by
  have h := ((s.setCond_touches k ⟨false, 0, 0⟩).trans (State.raise_touches _ .monitor)).mono (b := sampleParts)
    (by decide)
  refine h.step ?_
  unfold State.clearCond State.clearEffect
  cases k
  · exact (State.freeWind_touches _).mono (by decide)
  · exact touches.refl _ _
  · exact (State.setEntry_touches _ 5 none).mono (by decide)
  all_goals exact touches.refl _ _

theorem State.evalCond_touches (s : State) (v : Int) (k : CondId) : touches sampleParts s (s.evalCond v k) := by
  have h0 : ∀ c, touches sampleParts s (s.setCond k c) := fun c => (s.setCond_touches k c).mono (by decide)
  simp only [State.evalCond]
  split
  · split
    · split
      · exact s.clearCond_touches k
      · exact h0 _
    · exact h0 _
  · split
    · split
      · exact s.raiseCond_touches k
      · exact h0 _
    · exact h0 _

theorem State.forceCond_touches (s : State) (k : CondId) : touches sampleParts s (s.forceCond k) := by
  have h0 : ∀ c, touches sampleParts s (s.setCond k c) := fun c => (s.setCond_touches k c).mono (by decide)
  simp only [State.forceCond]
  split
  · exact h0 _
  · split
    · exact h0 _
    · exact s.raiseCond_touches _

theorem State.sampleChannel_touches (s : State) (ch : MonChannel) (r : Nat) :
    touches sampleParts s (s.sampleChannel ch r) := by
  have h0 : ∀ c, touches sampleParts s (s.setMonChannel ch c) := fun c =>
    (s.setMonChannel_touches ch c).mono (by decide)
  have h1 : ∀ u : State, touches sampleParts u (u.raise .monitor) := fun u => (u.raise_touches _).mono (by decide)
  simp only [State.sampleChannel]
  split
  · refine touches.step ?_ (touches.foldl _ State.forceCond_touches _ _)
    split
    · exact h0 _
    · exact (h0 _).step (h1 _)
  · refine touches.step ?_ (touches.foldl _ (fun t k => t.evalCond_touches _ k) _ _)
    split
    · exact (h0 _).step (h1 _)
    · exact h0 _

theorem execMonitorSample_touches (ch : MonChannel) (r : BitVec 12) (s t : State)
    (h : execMonitorSample ch r s = .next t) : touches (partsOf (.monitorSample ch r)) s t := by
  cases h
  exact (((s.advance_touches _).trans (State.sampleChannel_touches _ ch r.toNat)).trans
    (State.deriveBoarding_touches _)).mono (by simp only [partsOf]; decide)

/-! ### Stops -/

theorem execAdvance_touches (p : Form Byte) (s t : State) (h : execAdvance p s = .next t) :
    touches (partsOf (.advance p)) s t := by
  refine withForm_touches h (by simp only [partsOf]; decide) fun x => ?_
  have h0 : ∀ (u : State) c, touches [.records, .attention] u (u.advanceRecord c) := by
    intro u c
    unfold State.advanceRecord
    split
    · exact touches.refl _ u
    · split
      · split
        · exact (u.exitClose_touches c).mono (by decide)
        · exact touches.refl _ u
      · exact u.enterClosing_touches c
      all_goals exact touches.refl _ u
  have h1 : ∀ u : State, touches [.records, .attention] s u →
      touches (partsOf (.advance p)) s ((u.deriveBoarding).reply 0x40 .ok u.phaseData) := fun u hu =>
    ((hu.trans (State.deriveBoarding_touches _)).trans (State.reply_touches _ _ _ _)).mono
      (by simp only [partsOf]; decide)
  simp only [advance]
  split
  · exact (s.reply_touches _ _ _).mono (by simp only [partsOf]; decide)
  · split
    · exact (s.reply_touches _ _ _).mono (by simp only [partsOf]; decide)
    · split
      · exact h1 _ (h0 _ _)
      · split
        · exact h1 _ (h0 _ _)
        · exact h1 _ ((h0 _ _).step (h0 _ _))

theorem execReopenDoors_touches (p : Form ReopenArgs) (s t : State) (h : execReopenDoors p s = .next t) :
    touches (partsOf (.reopenDoors p)) s t := by
  refine withForm_touches h (by simp only [partsOf]; decide) fun x => ?_
  unfold reopenDoors
  split
  · exact (s.reply_touches _ _ _).mono (by simp only [partsOf]; decide)
  · split
    · exact (s.reply_touches _ _ _).mono (by simp only [partsOf]; decide)
    · split
      · exact (s.reply_touches _ _ _).mono (by simp only [partsOf]; decide)
      · exact (s.modRecord_touches _ _).trans (State.reply_touches _ _ _ _)

theorem execAckAlarm_touches (p : Form Byte) (s t : State) (h : execAckAlarm p s = .next t) :
    touches (partsOf (.ackAlarm p)) s t := by
  refine withForm_touches h (by simp only [partsOf]; decide) fun x => ?_
  have h0 : ∀ c, touches [.records, .alarms] s (s.clearAlarm c) := by
    intro c
    refine ⟨fun p hp => ?_, by cases c <;> simp [attentionKept, State.clearAlarm]⟩
    cases c <;> cases p <;> first
      | exact rfl
      | exact And.intro rfl rfl
      | exact And.intro rfl (And.intro rfl rfl)
      | exact And.intro rfl (And.intro rfl (And.intro rfl rfl))
      | exact absurd (by decide) hp
      | simp [samePart, sameCarPart, State.clearAlarm, State.setCar, State.car]
  split
  · exact ((h0 _).trans (State.reply_touches _ _ _ _)).mono (by simp only [partsOf]; decide)
  · exact (s.reply_touches _ _ _).mono (by simp only [partsOf]; decide)

theorem State.setEvac_touches (s : State) (c : Car) (d : Side) (b : Bool) : touches [.evac] s (s.setEvac c d b) := by
  refine ⟨fun p hp => ?_, by cases c <;> cases d <;> simp [attentionKept, State.setEvac]⟩
  cases c <;> cases d <;> cases p <;> first
    | exact rfl
    | exact And.intro rfl rfl
    | exact And.intro rfl (And.intro rfl rfl)
    | exact And.intro rfl (And.intro rfl (And.intro rfl rfl))
    | exact absurd (by decide) hp
    | simp [samePart, sameCarPart, State.setEvac, State.setCar, State.car]

theorem execEvacuate_touches (p : Form CarSideArgs) (s t : State) (h : execEvacuate p s = .next t) :
    touches (partsOf (.evacuate p)) s t := by
  refine withForm_touches h (by simp only [partsOf]; decide) fun x => ?_
  unfold evacuate
  split
  · iterate 2
      split
      · first
          | exact (s.refuse_touches _ _).mono (by simp only [partsOf]; decide)
          | exact (s.reply_touches _ _ _).mono (by simp only [partsOf]; decide)
    split
    · exact (s.refuse_touches _ _).mono (by simp only [partsOf]; decide)
    · exact (s.setEvac_touches _ _ _).trans (State.reply_touches _ _ _ _)
  · exact (s.reply_touches _ _ _).mono (by simp only [partsOf]; decide)

theorem execEndEvacuation_touches (p : Form CarSideArgs) (s t : State) (h : execEndEvacuation p s = .next t) :
    touches (partsOf (.endEvacuation p)) s t := by
  refine withForm_touches h (by simp only [partsOf]; decide) fun x => ?_
  split
  · exact (s.setEvac_touches _ _ _).trans (State.reply_touches _ _ _ _)
  · exact (s.reply_touches _ _ _).mono (by simp only [partsOf]; decide)

theorem execDownlink_touches (c : Car) (s t : State) (h : execDownlink c s = .next t) :
    touches (partsOf (.downlink c)) s t := by
  cases h
  refine ⟨fun p hp => ?_, by cases c <;> simp [attentionKept]⟩
  cases c <;> cases p <;> first
    | exact rfl
    | exact And.intro rfl rfl
    | exact And.intro rfl (And.intro rfl rfl)
    | exact And.intro rfl (And.intro rfl (And.intro rfl rfl))
    | exact absurd (by simp only [partsOf]; decide) hp
    | simp [samePart, sameCarPart, State.setCar, State.car, State.advance]

theorem State.takeReport_touches (s : State) (c : Car) (r : Report) :
    touches [.links, .reports, .attention] s (s.takeReport c r) := by
  have h0 : touches [.links, .reports] s
      (s.setCar c { s.car c with live := true, linkDue := some (s.now + ms (s.par 0x80)), report := some r }) := by
    refine ⟨fun p hp => ?_, by cases c <;> simp [attentionKept]⟩
    cases c <;> cases p <;> first
      | exact rfl
      | exact And.intro rfl rfl
      | exact And.intro rfl (And.intro rfl rfl)
      | exact And.intro rfl (And.intro rfl (And.intro rfl rfl))
      | exact absurd (by decide) hp
      | simp [samePart, sameCarPart, State.setCar, State.car]
  simp only [State.takeReport]
  split
  · exact (h0.trans (State.raise_touches _ _)).mono (by decide)
  · exact h0.mono (by decide)

/-- The parts that the phases of a stop may change at an uplink. -/
abbrev phaseParts : List Part := [.records, .loads, .attention, .admitted]

theorem State.recordUplink_touches (s : State) (c : Car) : touches phaseParts s (s.recordUplink c) := by
  have hd : ∀ r, touches phaseParts s (s.alightDone c r) := by
    intro r
    have h0 : touches phaseParts s (s.setCar c { s.car c with admitted := 0 }) := by
      refine ⟨fun p hp => ?_, by cases c <;> simp [attentionKept]⟩
      cases c <;> cases p <;> first
        | exact rfl
        | exact And.intro rfl rfl
        | exact And.intro rfl (And.intro rfl rfl)
        | exact And.intro rfl (And.intro rfl (And.intro rfl rfl))
        | exact absurd (by decide) hp
        | simp [samePart, sameCarPart, State.setCar, State.car]
    simp only [State.alightDone]
    refine touches.step ?_ ((State.enterBoarding_touches _ c).mono (by decide))
    split
    · exact h0
    · exact touches.refl _ s
  have hm : ∀ (u : State) f, touches phaseParts u (u.modRecord c f) := fun u f =>
    (u.modRecord_touches c f).mono (by decide)
  have ht : ∀ u : State, touches phaseParts u (u.tryReady c) := fun u => (u.tryReady_touches c).mono (by decide)
  unfold State.recordUplink
  split
  · exact touches.refl _ s
  · split
    · exact (s.testArrived_touches c).mono (by decide)
    · split
      · exact hd _
      · exact touches.refl _ s
    · split
      · split
        · exact ht s
        · exact hm s _
      · split
        · exact (hm s _).step (ht _)
        · exact touches.refl _ s
    · split
      · exact (s.enterClosing_touches c).mono (by decide)
      · exact touches.refl _ s
    all_goals exact touches.refl _ s

theorem State.lineUplink_touches (s : State) (c : Car) :
    touches (transitionParts ++ [.latch, .hold, .resetWait]) s (s.lineUplink c) := by
  unfold State.lineUplink
  split
  · exact touches.refl _ s
  · split <;> first
      | exact (s.endStart_touches _ _).mono (by decide)
      | exact (s.takeCause_touches _).mono (by decide)
      | exact touches.refl _ s
      | exact touches.ite (touches.refl _ s) ((s.takeCause_touches _).mono (by decide))

theorem State.takeAlarm_touches (s : State) (c : Car) :
    touches [.records, .alarms, .attention] s (s.takeAlarm c) := by
  have h0 : ∀ u : State, touches [.alarms] u (u.setCar c { u.car c with pendingAlarm := true }) := by
    intro u
    refine ⟨fun p hp => ?_, by cases c <;> simp [attentionKept]⟩
    cases c <;> cases p <;> first
      | exact rfl
      | exact And.intro rfl rfl
      | exact And.intro rfl (And.intro rfl rfl)
      | exact And.intro rfl (And.intro rfl (And.intro rfl rfl))
      | exact absurd (by decide) hp
      | simp [samePart, sameCarPart, State.setCar, State.car]
  simp only [State.takeAlarm]
  split
  · exact ((s.raise_touches _).trans (State.modRecord_touches _ c _)).mono (by decide)
  · exact ((s.raise_touches _).trans (h0 _)).mono (by decide)

set_option maxRecDepth 4000 in
theorem execUplink_touches (c : Car) (b : Bool) (f : List Byte) (s t : State) (h : execUplink c b f s = .next t) :
    touches (partsOf (.uplink c b f)) s t := by
  cases h
  split
  · rename_i r hr
    have h1 : touches (partsOf (.uplink c b f)) s (((s.takeReport c r).lineUplink c).recordUplink c) :=
      (((s.takeReport_touches c r).trans (State.lineUplink_touches _ c)).trans (State.recordUplink_touches _ c)).mono
        (by simp only [partsOf]; decide)
    refine touches.step ?_ ((State.deriveBoarding_touches _).mono (by simp only [partsOf]; decide))
    simp only [State.actUplink]
    split
    · exact h1.step ((State.takeAlarm_touches _ c).mono (by simp only [partsOf]; decide))
    · exact h1
  · exact touches.refl _ s

theorem execCarLinkTimeout_touches (c : Car) (s t : State) (h : execCarLinkTimeout c s = .next t) :
    touches (partsOf (.carLinkTimeout c)) s t := by
  cases h
  refine onExpiry_touches _ s _ (by simp only [partsOf]; decide) fun u => ?_
  have h0 : touches [.links, .evac] u
      (u.setCar c { u.car c with live := false, linkDue := none, evacLeft := false, evacRight := false }) := by
    refine ⟨fun p hp => ?_, by cases c <;> simp [attentionKept]⟩
    cases c <;> cases p <;> first
      | exact rfl
      | exact And.intro rfl rfl
      | exact And.intro rfl (And.intro rfl rfl)
      | exact And.intro rfl (And.intro rfl (And.intro rfl rfl))
      | exact absurd (by decide) hp
      | simp [samePart, State.setCar, State.car]
  exact (((h0.trans (State.raise_touches _ _)).trans (State.haltEvent_touches _ _)).trans
    (State.deriveBoarding_touches _)).mono (by simp only [partsOf]; decide)

theorem execDoorFault_touches (c : Car) (s t : State) (h : execDoorFault c s = .next t) :
    touches (partsOf (.doorFault c)) s t := by
  cases h
  refine onExpiry_touches _ s _ (by simp only [partsOf]; decide) fun u => ?_
  exact ((u.modRecord_touches c _).trans (State.raise_touches _ _)).mono (by simp only [partsOf]; decide)

theorem execAlightTimeExpiry_touches (c : Car) (s t : State) (h : execAlightTimeExpiry c s = .next t) :
    touches (partsOf (.alightTimeExpiry c)) s t := by
  cases h
  exact onExpiry_touches _ s _ (by simp only [partsOf]; decide) fun u =>
    (u.exitClose_touches c).mono (by simp only [partsOf]; decide)

theorem execBoardTimeExpiry_touches (c : Car) (s t : State) (h : execBoardTimeExpiry c s = .next t) :
    touches (partsOf (.boardTimeExpiry c)) s t := by
  cases h
  exact onExpiry_touches _ s _ (by simp only [partsOf]; decide) fun u =>
    ((u.enterClosing_touches c).trans (State.deriveBoarding_touches _)).mono (by simp only [partsOf]; decide)

theorem execReopenTimeExpiry_touches (c : Car) (s t : State) (h : execReopenTimeExpiry c s = .next t) :
    touches (partsOf (.reopenTimeExpiry c)) s t := by
  cases h
  exact onExpiry_touches _ s _ (by simp only [partsOf]; decide) fun u =>
    ((u.modRecord_touches c _).trans (State.commandClose_touches _ c _)).mono (by simp only [partsOf]; decide)

/-! ### Entitlements -/

theorem execAddEntitlement_touches (p : Form EntTransfer) (s t : State) (h : execAddEntitlement p s = .next t) :
    touches (partsOf (.addEntitlement p)) s t := by
  refine withForm_touches h (by simp only [partsOf]; decide) fun x => ?_
  have hr : ∀ rc, touches (partsOf (.addEntitlement p)) s (s.reply 0x60 rc []) := fun rc =>
    (s.reply_touches _ _ _).mono (by simp only [partsOf]; decide)
  simp only [addEntitlement]
  split
  · exact hr _
  · split
    · exact hr _
    · split
      · exact (s.setEnt_touches _).trans (State.reply_touches _ _ _ _)
      · split
        · exact (s.setEnt_touches _).trans (State.reply_touches _ _ _ _)
        · exact hr _

theorem execAmendEntitlement_touches (p : Form AmendEntArgs) (s t : State) (h : execAmendEntitlement p s = .next t) :
    touches (partsOf (.amendEntitlement p)) s t := by
  refine withForm_touches h (by simp only [partsOf]; decide) fun x => ?_
  have hr : ∀ rc, touches (partsOf (.amendEntitlement p)) s (s.reply 0x61 rc []) := fun rc =>
    (s.reply_touches _ _ _).mono (by simp only [partsOf]; decide)
  unfold amendEntitlement
  split
  · exact hr _
  · split
    · exact hr _
    · split
      · exact hr _
      · split
        · exact hr _
        · split
          · exact hr _
          · exact (s.setEnt_touches _).trans (State.reply_touches _ _ _ _)

theorem setBlocked_touches (code : Byte) (b : Bool) (m : Media) (s : State) :
    touches [.ent, .result] s (setBlocked code b m s) := by
  unfold setBlocked
  split
  · exact (s.reply_touches _ _ _).mono (by decide)
  · split
    · exact (s.reply_touches _ _ _).mono (by decide)
    · exact (s.setEnt_touches _).trans (State.reply_touches _ _ _ _)

theorem execBlockEntitlement_touches (p : Form Media) (s t : State) (h : execBlockEntitlement p s = .next t) :
    touches (partsOf (.blockEntitlement p)) s t :=
  withForm_touches h (by simp only [partsOf]; decide) fun x => setBlocked_touches _ _ x s

theorem execUnblockEntitlement_touches (p : Form Media) (s t : State) (h : execUnblockEntitlement p s = .next t) :
    touches (partsOf (.unblockEntitlement p)) s t :=
  withForm_touches h (by simp only [partsOf]; decide) fun x => setBlocked_touches _ _ x s

theorem execRetireEntitlement_touches (p : Form Media) (s t : State) (h : execRetireEntitlement p s = .next t) :
    touches (partsOf (.retireEntitlement p)) s t := by
  refine withForm_touches h (by simp only [partsOf]; decide) fun x => ?_
  have hr : ∀ rc, touches (partsOf (.retireEntitlement p)) s (s.reply 0x64 rc []) := fun rc =>
    (s.reply_touches _ _ _).mono (by simp only [partsOf]; decide)
  unfold retireEntitlement
  split
  · exact hr _
  · split
    · exact hr _
    · split
      · exact hr _
      · exact (s.setEnt_touches _).trans (State.reply_touches _ _ _ _)

/-! ### Gates -/

theorem execSetGate_touches (p : Form GateArgs) (s t : State) (h : execSetGate p s = .next t) :
    touches (partsOf (.setGate p)) s t := by
  refine withForm_touches h (by simp only [partsOf]; decide) fun x => ?_
  have hr : ∀ rc, touches (partsOf (.setGate p)) s (s.reply 0x70 rc []) := fun rc =>
    (s.reply_touches _ _ _).mono (by simp only [partsOf]; decide)
  simp only [setGate]
  split
  · exact hr _
  · split
    · exact hr _
    · split
      · exact hr _
      · split
        · exact hr _
        · exact (s.modGate_touches _ _).trans (State.reply_touches _ _ _ _)

theorem State.sendPoll_touches (s : State) (k : Nat) : touches [.poll, .gates] s (s.sendPoll k) := by
  have h0 : ∀ (u : State) f d, touches [.poll] u
      { u with adm := { u.adm with lastFrame := f, polled := some k, windowDue := d, slotPolls := true } } := by
    intro u f d
    refine ⟨fun p hp => ?_, by simp [attentionKept]⟩
    cases p <;> first
      | exact rfl
      | exact And.intro rfl rfl
      | exact And.intro rfl (And.intro rfl rfl)
      | exact And.intro rfl (And.intro rfl (And.intro rfl rfl))
      | exact absurd (by decide) hp
      | simp [samePart, sameCarPart]
  unfold State.sendPoll
  split
  · exact ((s.modGate_touches _ _).trans (h0 _ _ _)).mono (by decide)
  · exact touches.refl _ s

theorem State.endSlot_touches (s : State) : touches [.poll] s s.endSlot := by
  refine ⟨fun p hp => ?_, by simp [attentionKept]⟩
  cases p <;> first
    | exact rfl
    | exact And.intro rfl rfl
    | exact And.intro rfl (And.intro rfl rfl)
    | exact And.intro rfl (And.intro rfl (And.intro rfl rfl))
    | exact absurd (by decide) hp
    | simp [samePart, sameCarPart]

theorem State.beginSlot_touches (s : State) : touches [.poll, .gates, .boarding] s s.beginSlot := by
  have h0 : ∀ (u : State) d, touches [.poll] u
      { u with adm := { u.adm with pollDue := d, polled := none, windowDue := none } } := by
    intro u d
    refine ⟨fun p hp => ?_, by simp [attentionKept]⟩
    cases p <;> first
      | exact rfl
      | exact And.intro rfl rfl
      | exact And.intro rfl (And.intro rfl rfl)
      | exact And.intro rfl (And.intro rfl (And.intro rfl rfl))
      | exact absurd (by decide) hp
      | simp [samePart, sameCarPart]
  have h1 : ∀ (u : State) n k, touches [.poll] u { u with adm := { u.adm with normalPtr := n, urgentPtr := k } } := by
    intro u n k
    refine ⟨fun p hp => ?_, by simp [attentionKept]⟩
    cases p <;> first
      | exact rfl
      | exact And.intro rfl rfl
      | exact And.intro rfl (And.intro rfl rfl)
      | exact And.intro rfl (And.intro rfl (And.intro rfl rfl))
      | exact absurd (by decide) hp
      | simp [samePart, sameCarPart]
  have h2 : ∀ (u : State) f, touches [.poll, .boarding] u
      { u with adm := { u.adm with broadcastPending := false, lastFrame := f } } := by
    intro u f
    refine ⟨fun p hp => ?_, by simp [attentionKept]⟩
    cases p <;> first
      | exact rfl
      | exact And.intro rfl rfl
      | exact And.intro rfl (And.intro rfl rfl)
      | exact And.intro rfl (And.intro rfl (And.intro rfl rfl))
      | exact absurd (by decide) hp
      | simp [samePart, sameCarPart]
  simp only [State.beginSlot]
  split
  · exact ((s.endSlot_touches.trans (h0 _ _)).trans (h2 _ _)).mono (by decide)
  · exact (((s.endSlot_touches.trans (h0 _ _)).trans (h1 _ _ _)).trans (State.sendPoll_touches _ _)).mono (by decide)
  · exact (((s.endSlot_touches.trans (h0 _ _)).trans (h1 _ _ _)).trans (State.sendPoll_touches _ _)).mono (by decide)
  · exact (s.endSlot_touches.trans (h0 _ _)).mono (by decide)

theorem execPollSlot_touches (s t : State) (h : execPollSlot s = .next t) : touches (partsOf .pollSlot) s t := by
  cases h
  refine onExpiry_touches _ s _ (by decide) fun u => ?_
  split
  · refine ⟨fun p hp => ?_, by simp [attentionKept]⟩
    cases p <;> first
      | exact rfl
      | exact And.intro rfl rfl
      | exact And.intro rfl (And.intro rfl rfl)
      | exact And.intro rfl (And.intro rfl (And.intro rfl rfl))
      | exact absurd (by decide) hp
      | simp [samePart, sameCarPart]
  · exact u.beginSlot_touches.mono (by decide)

theorem State.beginWaiting_touches (s : State) : touches [.poll, .gates, .boarding] s s.beginWaiting :=
  touches.ite s.beginSlot_touches (touches.refl _ s)

theorem State.endAwait_touches (s : State) : touches [.poll] s s.endAwait := by
  refine ⟨fun p hp => ?_, by simp [attentionKept]⟩
  cases p <;> first
    | exact rfl
    | exact And.intro rfl rfl
    | exact And.intro rfl (And.intro rfl rfl)
    | exact And.intro rfl (And.intro rfl (And.intro rfl rfl))
    | exact absurd (by decide) hp
    | simp [samePart, sameCarPart]

theorem State.miss_touches (s : State) (k : Nat) : touches [.gates, .attention] s (s.miss k) := by
  simp only [State.miss]
  split
  · split
    · exact ((s.modGate_touches _ _).trans (State.raise_touches _ _)).mono (by decide)
    · exact (s.modGate_touches _ _).mono (by decide)
  · exact touches.refl _ s

theorem State.goodResponse_touches (s : State) (k : Nat) (h : Health) :
    touches [.gates, .attention] s (s.goodResponse k h) := by
  simp only [State.goodResponse]
  split
  · split
    · exact ((s.modGate_touches _ _).trans (State.raise_touches _ _)).mono (by decide)
    · exact (s.modGate_touches _ _).mono (by decide)
  · exact touches.refl _ s

/-- The parts that a message of a gate may change. -/
abbrev messageParts : List Part := .admitted :: lapseParts

theorem State.openClaim_touches (s : State) (a n : Nat) (r : EntRecord) (c : Car) (k : Nat) :
    touches messageParts s (s.openClaim a n r c k) := by
  have h0 : ∀ (u : State) i l, touches [.claims] u { u with adm := { u.adm with lastClaimId := i, claims := l } } := by
    intro u i l
    refine ⟨fun p hp => ?_, by simp [attentionKept]⟩
    cases p <;> first
      | exact rfl
      | exact And.intro rfl rfl
      | exact And.intro rfl (And.intro rfl rfl)
      | exact And.intro rfl (And.intro rfl (And.intro rfl rfl))
      | exact absurd (by decide) hp
      | simp [samePart, sameCarPart]
  exact (((s.modRecord_touches c _).trans (State.setEnt_touches _ _)).trans (h0 _ _ _)).mono (by decide)

theorem State.present_touches (s : State) (a : Nat) (m : Media) : touches messageParts s (s.present a m).1 := by
  have h0 : touches messageParts s (s.lapseOwn a) := by
    unfold State.lapseOwn
    split
    · exact (s.lapseClaim_touches _).mono (by decide)
    · exact touches.refl _ s
  have h1 : ∀ (u : State) k n r, touches messageParts u (u.admitRecord a k n r).1 := by
    intro u k n r
    simp only [State.admitRecord]
    split
    · exact touches.refl _ u
    · exact touches.refl _ u
    · split
      · exact touches.refl _ u
      · exact u.openClaim_touches _ _ _ _ _
  simp only [State.present]
  split
  · exact h0
  · split
    · exact h0
    · exact h0.step (h1 _ _ _ _)

theorem State.abandonClaim_touches (s : State) (cl : Claim) : touches messageParts s (s.abandonClaim cl) :=
  (((s.lowerHeld_touches _ _).trans (State.detachClaim_touches _ _)).trans (State.dropClaim_touches _ _)).mono (by decide)

theorem State.settleClaim_touches (s : State) (a : Nat) (cl : Claim) (n : Nat) :
    touches messageParts s (s.settleClaim a cl n) :=
  ((((s.addBoarded_touches _ _ _).trans (State.lowerHeld_touches _ _ _)).trans (State.onTimeCommit_touches _ _ _ _)).trans
    (State.dropClaim_touches _ _)).mono (by decide)

theorem State.latePassage_touches (s : State) (a : Nat) (m : Memory) (n : Nat) :
    touches messageParts s (s.latePassage a m n) := by
  have h0 : ∀ k, touches messageParts s (s.countLate m k) := by
    intro k
    unfold State.countLate
    split
    · exact touches.ite ((s.addBoarded_touches _ _ _).mono (by decide)) (touches.refl _ s)
    · exact touches.refl _ s
  simp only [State.latePassage]
  exact (h0 _).step (((State.lateCommit_touches _ _ _ _).trans (State.modGate_touches _ _ _)).mono (by decide))

theorem State.passed_touches (s : State) (a : Nat) (id : Byte) (n : Nat) :
    touches messageParts s (s.passed a id n).1 := by
  unfold State.passed
  split
  · exact touches.ite (s.abandonClaim_touches _) (s.settleClaim_touches _ _ _)
  · split
    · exact touches.ite (touches.refl _ s) (s.latePassage_touches _ _ _)
    · exact touches.refl _ s

theorem State.abandoned_touches (s : State) (a : Nat) (id : Byte) : touches messageParts s (s.abandoned a id).1 := by
  unfold State.abandoned
  split
  · exact s.abandonClaim_touches _
  · exact touches.ite ((s.modGate_touches _ _).mono (by decide)) (touches.refl _ s)

theorem State.takeMessage_touches (s : State) (a : Nat) (b : Bool) (m : GateMessage) :
    touches messageParts s (s.takeMessage a b m) := by
  have hr : touches messageParts s (s.repeatAnswer a) := (s.modGate_touches _ _).mono (by decide)
  have ha : ∀ (u : State) x, touches messageParts u (u.answer a b x) := fun u x =>
    (u.modGate_touches _ _).mono (by decide)
  simp only [State.takeMessage]
  split
  · exact touches.refl _ s
  · split
    · exact hr
    · exact (s.present_touches _ _).step (ha _ _)
  · split
    · exact hr
    · exact (s.passed_touches _ _ _).step (ha _ _)
  · split
    · exact hr
    · exact (s.abandoned_touches _ _).step (ha _ _)

theorem execGateResponse_touches (b : Bool) (f : List Byte) (s t : State) (h : execGateResponse b f s = .next t) :
    touches (partsOf (.gateResponse b f)) s t := by
  cases h
  split
  · rename_i a ha
    have h0 : touches (partsOf (.gateResponse b f)) s s.endAwait :=
      s.endAwait_touches.mono (by simp only [partsOf]; decide)
    have h1 : ∀ u : State, touches (partsOf (.gateResponse b f)) u (u.handleResponse a b f) := by
      intro u
      unfold State.handleResponse
      split
      · exact (((u.goodResponse_touches _ _).trans (State.takeMessage_touches _ _ _ _)).trans
          (State.deriveBoarding_touches _)).mono (by simp only [partsOf]; decide)
      · exact (u.miss_touches _).mono (by simp only [partsOf]; decide)
    exact (h0.step (h1 _)).step ((State.beginWaiting_touches _).mono (by simp only [partsOf]; decide))
  · exact touches.refl _ s

theorem execResponseWindowExpiry_touches (s t : State) (h : execResponseWindowExpiry s = .next t) :
    touches (partsOf .responseWindowExpiry) s t := by
  cases h
  refine onExpiry_touches _ s _ (by decide) fun u => ?_
  split
  · exact ((u.endAwait_touches.trans (State.miss_touches _ _)).trans (State.beginWaiting_touches _)).mono (by decide)
  · exact touches.refl _ u

theorem execClaimLapse_touches (id : Byte) (s t : State) (h : execClaimLapse id s = .next t) :
    touches (partsOf (.claimLapse id)) s t := by
  cases h
  split
  · exact (((s.advance_touches _).trans (State.lapseClaim_touches _ _)).trans (State.deriveBoarding_touches _)).mono
      (by simp only [partsOf]; decide)
  · exact touches.refl _ s

end Sys2Proof.Machine
end

