-- ==== Sys2Proof/Laws/PerInstr.lean ====
section
/-! SUPPORT. What every command is as syntax, constructor by constructor: the family FrameCodec. -/

namespace Sys2Proof.Laws

open Sys2Proof.Machine

set_option Elab.async false

/-- A command that is written as a frame has the code of its row, parameters that match its form, at most 60 parameter
bytes (R176), and can reach the device. -/
def FrameCodec.Statement (i : Instr) : Prop :=
  ∀ (code : Byte) (p : List Byte), commandBytes i = some (code, p) →
    linkCode i = some code ∧ hasWrongLength i = false ∧ p.length ≤ 60 ∧ i.wf = true

/-- A number written in n bytes has n bytes. -/
@[simp] theorem beBytes_length (n v : Nat) : (beBytes n v).length = n := by
  induction n with
  | zero => rfl
  | succ n ih => simp [beBytes, ih]

/-- A word written in n bytes has n bytes. -/
@[simp] theorem wordBytes_length (n : Nat) {w : Nat} (x : BitVec w) : (wordBytes n x).length = n := by
  simp [wordBytes]

/-- The entitlement transfer record has 20 bytes (spec 11, section 11.3). -/
@[simp] theorem entTransferBytes_length (t : EntTransfer) : (entTransferBytes t).length = 20 := by
  simp [entTransferBytes]

/-- Only a command whose parameters match its form is written, with its code and the bytes of its fields. -/
theorem formBytes_eq_some {α : Type} {code : Nat} {f : α → List Byte} {p : Form α} {c : Byte} {l : List Byte}
    (h : formBytes code f p = some (c, l)) : ∃ x, p = .fields x ∧ c = BitVec.ofNat 8 code ∧ l = f x := by
  cases p with
  | wrongLength => cases h
  | fields x => cases h; exact ⟨x, rfl, rfl, rfl⟩

/-- setClock is written as its row says. -/
theorem FrameCodec.setClock (p : Form ClockArgs) : FrameCodec.Statement (.setClock p) := by
  intro c l h
  obtain ⟨x, rfl, rfl, rfl⟩ := formBytes_eq_some h
  exact ⟨rfl, rfl, by simp, rfl⟩

/-- getClock is written as its row says. -/
theorem FrameCodec.getClock (p : Form NoArgs) : FrameCodec.Statement (.getClock p) := by
  intro c l h
  obtain ⟨x, rfl, rfl, rfl⟩ := formBytes_eq_some h
  exact ⟨rfl, rfl, by simp, rfl⟩

/-- setParameter is written as its row says. -/
theorem FrameCodec.setParameter (p : Form ParamArgs) : FrameCodec.Statement (.setParameter p) := by
  intro c l h
  obtain ⟨x, rfl, rfl, rfl⟩ := formBytes_eq_some h
  exact ⟨rfl, rfl, by simp, rfl⟩

/-- getParameter is written as its row says. -/
theorem FrameCodec.getParameter (p : Form Byte) : FrameCodec.Statement (.getParameter p) := by
  intro c l h
  obtain ⟨x, rfl, rfl, rfl⟩ := formBytes_eq_some h
  exact ⟨rfl, rfl, by simp, rfl⟩

/-- writeStagedHeader is written as its row says. -/
theorem FrameCodec.writeStagedHeader (p : Form HeaderArgs) : FrameCodec.Statement (.writeStagedHeader p) := by
  intro c l h
  obtain ⟨x, rfl, rfl, rfl⟩ := formBytes_eq_some h
  exact ⟨rfl, rfl, by simp, rfl⟩

/-- writeStagedStation is written as its row says. -/
theorem FrameCodec.writeStagedStation (p : Form StationArgs) : FrameCodec.Statement (.writeStagedStation p) := by
  intro c l h
  obtain ⟨x, rfl, rfl, rfl⟩ := formBytes_eq_some h
  exact ⟨rfl, rfl, by simp, rfl⟩

/-- writeStagedSegment is written as its row says. -/
theorem FrameCodec.writeStagedSegment (p : Form SegmentArgs) : FrameCodec.Statement (.writeStagedSegment p) := by
  intro c l h
  obtain ⟨x, rfl, rfl, rfl⟩ := formBytes_eq_some h
  exact ⟨rfl, rfl, by simp, rfl⟩

/-- readGeometry is written as its row says. -/
theorem FrameCodec.readGeometry (p : Form ReadGeoArgs) : FrameCodec.Statement (.readGeometry p) := by
  intro c l h
  obtain ⟨x, rfl, rfl, rfl⟩ := formBytes_eq_some h
  exact ⟨rfl, rfl, by simp, rfl⟩

/-- commitGeometry is written as its row says. -/
theorem FrameCodec.commitGeometry (p : Form NoArgs) : FrameCodec.Statement (.commitGeometry p) := by
  intro c l h
  obtain ⟨x, rfl, rfl, rfl⟩ := formBytes_eq_some h
  exact ⟨rfl, rfl, by simp, rfl⟩

/-- enterInspection is written as its row says. -/
theorem FrameCodec.enterInspection (p : Form NoArgs) : FrameCodec.Statement (.enterInspection p) := by
  intro c l h
  obtain ⟨x, rfl, rfl, rfl⟩ := formBytes_eq_some h
  exact ⟨rfl, rfl, by simp, rfl⟩

/-- leaveInspection is written as its row says. -/
theorem FrameCodec.leaveInspection (p : Form NoArgs) : FrameCodec.Statement (.leaveInspection p) := by
  intro c l h
  obtain ⟨x, rfl, rfl, rfl⟩ := formBytes_eq_some h
  exact ⟨rfl, rfl, by simp, rfl⟩

/-- home is written as its row says. -/
theorem FrameCodec.home (p : Form Byte) : FrameCodec.Statement (.home p) := by
  intro c l h
  obtain ⟨x, rfl, rfl, rfl⟩ := formBytes_eq_some h
  exact ⟨rfl, rfl, by simp, rfl⟩

/-- unpark is written as its row says. -/
theorem FrameCodec.unpark (p : Form NoArgs) : FrameCodec.Statement (.unpark p) := by
  intro c l h
  obtain ⟨x, rfl, rfl, rfl⟩ := formBytes_eq_some h
  exact ⟨rfl, rfl, by simp, rfl⟩

/-- park is written as its row says. -/
theorem FrameCodec.park (p : Form NoArgs) : FrameCodec.Statement (.park p) := by
  intro c l h
  obtain ⟨x, rfl, rfl, rfl⟩ := formBytes_eq_some h
  exact ⟨rfl, rfl, by simp, rfl⟩

/-- startRun is written as its row says. -/
theorem FrameCodec.startRun (p : Form RunArgs) : FrameCodec.Statement (.startRun p) := by
  intro c l h
  obtain ⟨x, rfl, rfl, rfl⟩ := formBytes_eq_some h
  exact ⟨rfl, rfl, by simp, rfl⟩

/-- stopRun is written as its row says. -/
theorem FrameCodec.stopRun (p : Form NoArgs) : FrameCodec.Statement (.stopRun p) := by
  intro c l h
  obtain ⟨x, rfl, rfl, rfl⟩ := formBytes_eq_some h
  exact ⟨rfl, rfl, by simp, rfl⟩

/-- resume is written as its row says. -/
theorem FrameCodec.resume (p : Form NoArgs) : FrameCodec.Statement (.resume p) := by
  intro c l h
  obtain ⟨x, rfl, rfl, rfl⟩ := formBytes_eq_some h
  exact ⟨rfl, rfl, by simp, rfl⟩

/-- emergencyStop is written as its row says. -/
theorem FrameCodec.emergencyStop (p : Form NoArgs) : FrameCodec.Statement (.emergencyStop p) := by
  intro c l h
  obtain ⟨x, rfl, rfl, rfl⟩ := formBytes_eq_some h
  exact ⟨rfl, rfl, by simp, rfl⟩

/-- resetTrip is written as its row says. -/
theorem FrameCodec.resetTrip (p : Form NoArgs) : FrameCodec.Statement (.resetTrip p) := by
  intro c l h
  obtain ⟨x, rfl, rfl, rfl⟩ := formBytes_eq_some h
  exact ⟨rfl, rfl, by simp, rfl⟩

/-- advance is written as its row says. -/
theorem FrameCodec.advance (p : Form Byte) : FrameCodec.Statement (.advance p) := by
  intro c l h
  obtain ⟨x, rfl, rfl, rfl⟩ := formBytes_eq_some h
  exact ⟨rfl, rfl, by simp, rfl⟩

/-- reopenDoors is written as its row says. -/
theorem FrameCodec.reopenDoors (p : Form ReopenArgs) : FrameCodec.Statement (.reopenDoors p) := by
  intro c l h
  obtain ⟨x, rfl, rfl, rfl⟩ := formBytes_eq_some h
  exact ⟨rfl, rfl, by simp, rfl⟩

/-- ackAlarm is written as its row says. -/
theorem FrameCodec.ackAlarm (p : Form Byte) : FrameCodec.Statement (.ackAlarm p) := by
  intro c l h
  obtain ⟨x, rfl, rfl, rfl⟩ := formBytes_eq_some h
  exact ⟨rfl, rfl, by simp, rfl⟩

/-- evacuate is written as its row says. -/
theorem FrameCodec.evacuate (p : Form CarSideArgs) : FrameCodec.Statement (.evacuate p) := by
  intro c l h
  obtain ⟨x, rfl, rfl, rfl⟩ := formBytes_eq_some h
  exact ⟨rfl, rfl, by simp, rfl⟩

/-- endEvacuation is written as its row says. -/
theorem FrameCodec.endEvacuation (p : Form CarSideArgs) : FrameCodec.Statement (.endEvacuation p) := by
  intro c l h
  obtain ⟨x, rfl, rfl, rfl⟩ := formBytes_eq_some h
  exact ⟨rfl, rfl, by simp, rfl⟩

/-- readStopRecord is written as its row says. -/
theorem FrameCodec.readStopRecord (p : Form Byte) : FrameCodec.Statement (.readStopRecord p) := by
  intro c l h
  obtain ⟨x, rfl, rfl, rfl⟩ := formBytes_eq_some h
  exact ⟨rfl, rfl, by simp, rfl⟩

/-- addRestriction is written as its row says. -/
theorem FrameCodec.addRestriction (p : Form AddRestrictionArgs) : FrameCodec.Statement (.addRestriction p) := by
  intro c l h
  obtain ⟨x, rfl, rfl, rfl⟩ := formBytes_eq_some h
  exact ⟨rfl, rfl, by simp, rfl⟩

/-- amendRestriction is written as its row says. -/
theorem FrameCodec.amendRestriction (p : Form AmendRestrictionArgs) : FrameCodec.Statement (.amendRestriction p) := by
  intro c l h
  obtain ⟨x, rfl, rfl, rfl⟩ := formBytes_eq_some h
  exact ⟨rfl, rfl, by simp, rfl⟩

/-- retireRestriction is written as its row says. -/
theorem FrameCodec.retireRestriction (p : Form Byte) : FrameCodec.Statement (.retireRestriction p) := by
  intro c l h
  obtain ⟨x, rfl, rfl, rfl⟩ := formBytes_eq_some h
  exact ⟨rfl, rfl, by simp, rfl⟩

/-- readRestriction is written as its row says. -/
theorem FrameCodec.readRestriction (p : Form Byte) : FrameCodec.Statement (.readRestriction p) := by
  intro c l h
  obtain ⟨x, rfl, rfl, rfl⟩ := formBytes_eq_some h
  exact ⟨rfl, rfl, by simp, rfl⟩

/-- addEntitlement is written as its row says. -/
theorem FrameCodec.addEntitlement (p : Form EntTransfer) : FrameCodec.Statement (.addEntitlement p) := by
  intro c l h
  obtain ⟨x, rfl, rfl, rfl⟩ := formBytes_eq_some h
  exact ⟨rfl, rfl, by simp, rfl⟩

/-- amendEntitlement is written as its row says. -/
theorem FrameCodec.amendEntitlement (p : Form AmendEntArgs) : FrameCodec.Statement (.amendEntitlement p) := by
  intro c l h
  obtain ⟨x, rfl, rfl, rfl⟩ := formBytes_eq_some h
  exact ⟨rfl, rfl, by simp, rfl⟩

/-- blockEntitlement is written as its row says. -/
theorem FrameCodec.blockEntitlement (p : Form Media) : FrameCodec.Statement (.blockEntitlement p) := by
  intro c l h
  obtain ⟨x, rfl, rfl, rfl⟩ := formBytes_eq_some h
  exact ⟨rfl, rfl, by simp, rfl⟩

/-- unblockEntitlement is written as its row says. -/
theorem FrameCodec.unblockEntitlement (p : Form Media) : FrameCodec.Statement (.unblockEntitlement p) := by
  intro c l h
  obtain ⟨x, rfl, rfl, rfl⟩ := formBytes_eq_some h
  exact ⟨rfl, rfl, by simp, rfl⟩

/-- retireEntitlement is written as its row says. -/
theorem FrameCodec.retireEntitlement (p : Form Media) : FrameCodec.Statement (.retireEntitlement p) := by
  intro c l h
  obtain ⟨x, rfl, rfl, rfl⟩ := formBytes_eq_some h
  exact ⟨rfl, rfl, by simp, rfl⟩

/-- lookUpEntitlement is written as its row says. -/
theorem FrameCodec.lookUpEntitlement (p : Form LookUpArgs) : FrameCodec.Statement (.lookUpEntitlement p) := by
  intro c l h
  obtain ⟨x, rfl, rfl, rfl⟩ := formBytes_eq_some h
  cases x <;> exact ⟨rfl, rfl, by simp, rfl⟩

/-- count is written as its row says. -/
theorem FrameCodec.count (p : Form NoArgs) : FrameCodec.Statement (.count p) := by
  intro c l h
  obtain ⟨x, rfl, rfl, rfl⟩ := formBytes_eq_some h
  exact ⟨rfl, rfl, by simp, rfl⟩

/-- setGate is written as its row says. -/
theorem FrameCodec.setGate (p : Form GateArgs) : FrameCodec.Statement (.setGate p) := by
  intro c l h
  obtain ⟨x, rfl, rfl, rfl⟩ := formBytes_eq_some h
  exact ⟨rfl, rfl, by simp, rfl⟩

/-- readGateStatus is written as its row says. -/
theorem FrameCodec.readGateStatus (p : Form Byte) : FrameCodec.Statement (.readGateStatus p) := by
  intro c l h
  obtain ⟨x, rfl, rfl, rfl⟩ := formBytes_eq_some h
  exact ⟨rfl, rfl, by simp, rfl⟩

/-- readLineStatus is written as its row says. -/
theorem FrameCodec.readLineStatus (p : Form NoArgs) : FrameCodec.Statement (.readLineStatus p) := by
  intro c l h
  obtain ⟨x, rfl, rfl, rfl⟩ := formBytes_eq_some h
  exact ⟨rfl, rfl, by simp, rfl⟩

/-- readMonitor is written as its row says. -/
theorem FrameCodec.readMonitor (p : Form NoArgs) : FrameCodec.Statement (.readMonitor p) := by
  intro c l h
  obtain ⟨x, rfl, rfl, rfl⟩ := formBytes_eq_some h
  exact ⟨rfl, rfl, by simp, rfl⟩

/-- sense is written as its row says. -/
theorem FrameCodec.sense (p : Form NoArgs) : FrameCodec.Statement (.sense p) := by
  intro c l h
  obtain ⟨x, rfl, rfl, rfl⟩ := formBytes_eq_some h
  exact ⟨rfl, rfl, by simp, rfl⟩

/-- softReset is written as its row says. -/
theorem FrameCodec.softReset (p : Form NoArgs) : FrameCodec.Statement (.softReset p) := by
  intro c l h
  obtain ⟨x, rfl, rfl, rfl⟩ := formBytes_eq_some h
  exact ⟨rfl, rfl, by simp, rfl⟩

/-- frameError is written as its row says. -/
theorem FrameCodec.frameError (code : Byte) : FrameCodec.Statement (.frameError code) := by
  nofun

/-- invalid is written as its row says. -/
theorem FrameCodec.invalid (code : Byte) : FrameCodec.Statement (.invalid code) := by
  nofun

/-- busy is written as its row says. -/
theorem FrameCodec.busy (code : Byte) : FrameCodec.Statement (.busy code) := by
  nofun

/-- countingEdge is written as its row says. -/
theorem FrameCodec.countingEdge (ch : Channel) (level : Bool) (stamp : Nat) : FrameCodec.Statement (.countingEdge ch level stamp) := by
  nofun

/-- standstillTimeout is written as its row says. -/
theorem FrameCodec.standstillTimeout (ch : Channel) : FrameCodec.Statement (.standstillTimeout ch) := by
  nofun

/-- restConfirm is written as its row says. -/
theorem FrameCodec.restConfirm : FrameCodec.Statement (.restConfirm) := by
  nofun

/-- slipTimerExpiry is written as its row says. -/
theorem FrameCodec.slipTimerExpiry : FrameCodec.Statement (.slipTimerExpiry) := by
  nofun

/-- datumEdge is written as its row says. -/
theorem FrameCodec.datumEdge (station : Fin 4) : FrameCodec.Statement (.datumEdge station) := by
  nofun

/-- monitorSample is written as its row says. -/
theorem FrameCodec.monitorSample (ch : MonChannel) (reading : BitVec 12) : FrameCodec.Statement (.monitorSample ch reading) := by
  nofun

/-- minuteBoundary is written as its row says. -/
theorem FrameCodec.minuteBoundary : FrameCodec.Statement (.minuteBoundary) := by
  nofun

/-- haulSample is written as its row says. -/
theorem FrameCodec.haulSample : FrameCodec.Statement (.haulSample) := by
  nofun

/-- pwmPeriod is written as its row says. -/
theorem FrameCodec.pwmPeriod : FrameCodec.Statement (.pwmPeriod) := by
  nofun

/-- torqueReady is written as its row says. -/
theorem FrameCodec.torqueReady : FrameCodec.Statement (.torqueReady) := by
  nofun

/-- torqueReadyTimeout is written as its row says. -/
theorem FrameCodec.torqueReadyTimeout : FrameCodec.Statement (.torqueReadyTimeout) := by
  nofun

/-- emergencyStopInput is written as its row says. -/
theorem FrameCodec.emergencyStopInput (level : Bool) : FrameCodec.Statement (.emergencyStopInput level) := by
  nofun

/-- driveFaultInput is written as its row says. -/
theorem FrameCodec.driveFaultInput (level : Bool) : FrameCodec.Statement (.driveFaultInput level) := by
  nofun

/-- tripResetTime is written as its row says. -/
theorem FrameCodec.tripResetTime : FrameCodec.Statement (.tripResetTime) := by
  nofun

/-- downlink is written as its row says. -/
theorem FrameCodec.downlink (car : Car) : FrameCodec.Statement (.downlink car) := by
  nofun

/-- uplink is written as its row says. -/
theorem FrameCodec.uplink (car : Car) (charsOk : Bool) (frame : List Byte) : FrameCodec.Statement (.uplink car charsOk frame) := by
  nofun

/-- carLinkTimeout is written as its row says. -/
theorem FrameCodec.carLinkTimeout (car : Car) : FrameCodec.Statement (.carLinkTimeout car) := by
  nofun

/-- doorFault is written as its row says. -/
theorem FrameCodec.doorFault (car : Car) : FrameCodec.Statement (.doorFault car) := by
  nofun

/-- alightTimeExpiry is written as its row says. -/
theorem FrameCodec.alightTimeExpiry (car : Car) : FrameCodec.Statement (.alightTimeExpiry car) := by
  nofun

/-- boardTimeExpiry is written as its row says. -/
theorem FrameCodec.boardTimeExpiry (car : Car) : FrameCodec.Statement (.boardTimeExpiry car) := by
  nofun

/-- reopenTimeExpiry is written as its row says. -/
theorem FrameCodec.reopenTimeExpiry (car : Car) : FrameCodec.Statement (.reopenTimeExpiry car) := by
  nofun

/-- pollSlot is written as its row says. -/
theorem FrameCodec.pollSlot : FrameCodec.Statement (.pollSlot) := by
  nofun

/-- gateResponse is written as its row says. -/
theorem FrameCodec.gateResponse (charsOk : Bool) (frame : List Byte) : FrameCodec.Statement (.gateResponse charsOk frame) := by
  nofun

/-- responseWindowExpiry is written as its row says. -/
theorem FrameCodec.responseWindowExpiry : FrameCodec.Statement (.responseWindowExpiry) := by
  nofun

/-- claimLapse is written as its row says. -/
theorem FrameCodec.claimLapse (id : Byte) : FrameCodec.Statement (.claimLapse id) := by
  nofun

/-- powerOnReset is written as its row says. -/
theorem FrameCodec.powerOnReset (levels : Levels) : FrameCodec.Statement (.powerOnReset levels) := by
  nofun

/-- takenPhaseEdge is written as its row says. -/
theorem FrameCodec.takenPhaseEdge (ch : Channel) (phase : QuadPhase) (level : Bool) (stamp : Nat) : FrameCodec.Statement (.takenPhaseEdge ch phase level stamp) := by
  nofun

/-- datumLevelInactive is written as its row says. -/
theorem FrameCodec.datumLevelInactive (station : Fin 4) : FrameCodec.Statement (.datumLevelInactive station) := by
  nofun

/-- torqueReadyInactive is written as its row says. -/
theorem FrameCodec.torqueReadyInactive : FrameCodec.Statement (.torqueReadyInactive) := by
  nofun

end Sys2Proof.Laws
end

