-- ==== Sys2Proof/Laws/Table.lean ====
section
/-! SUPPORT. What the operations on the entitlement table do, slot by slot, and that each keeps its form (R136, R137). -/

namespace Sys2Proof.Machine

set_option Elab.async false

/-! ### Reading a slot after a change -/

/-- No slot below the first one listed is occupied in a table of rising slots. -/
theorem entGet_of_lt {t : EntTable} {k : Nat} (h : ∀ p ∈ t, k < p.1) : entGet t k = none := by
  induction t with
  | nil => rfl
  | cons p t ih =>
    have hp : k < p.1 := h p (by simp)
    simp only [entGet]
    rw [if_neg (by omega), ih fun q hq => h q (by simp [hq])]

/-- A slot after a record is put into a slot. -/
theorem entGet_entPut {t : EntTable} (ht : (t.map (·.1)).Pairwise (· < ·)) (slot : Nat) (r : EntRecord) (k : Nat) :
    entGet (entPut t slot r) k = if k = slot then some r else entGet t k := by
  induction t with
  | nil => simp only [entPut, entGet, eq_comm]
  | cons p t ih =>
    obtain ⟨j, x⟩ := p
    simp only [List.map_cons, List.pairwise_cons] at ht
    have above : ∀ q ∈ t, j < q.1 := fun q hq => ht.1 _ (List.mem_map_of_mem hq)
    simp only [entPut]
    split
    · simp only [entGet, eq_comm]
    · split
      · subst slot
        simp only [entGet]
        by_cases hk : j = k
        · simp [hk]
        · simp [hk, Ne.symm hk]
      · simp only [entGet, ih ht.2]
        by_cases hj : j = k
        · subst k
          simp only [if_true]
          split <;> simp_all
        · simp [hj]

/-- A slot after a slot is emptied. -/
@[simp] theorem entGet_entErase (t : EntTable) (slot k : Nat) :
    entGet (entErase t slot) k = if k = slot then none else entGet t k := by
  induction t with
  | nil => simp [entErase, entGet]
  | cons p t ih =>
    obtain ⟨j, x⟩ := p
    by_cases hj : j = slot
    · subst hj
      have : entErase ((j, x) :: t) j = entErase t j := by simp [entErase]
      rw [this, ih]
      split
      · rfl
      · simp [entGet, Ne.symm ‹k ≠ j›]
    · have : entErase ((j, x) :: t) slot = (j, x) :: entErase t slot := by simp [entErase, hj]
      rw [this]
      simp only [entGet, ih]
      by_cases hk : j = k
      · subst hk; simp [hj]
      · simp [hk]

/-- A slot after the record of a slot is changed. -/
@[simp] theorem entGet_entModify (t : EntTable) (slot : Nat) (f : EntRecord → EntRecord) (k : Nat) :
    entGet (entModify t slot f) k = if k = slot then (entGet t k).map f else entGet t k := by
  induction t with
  | nil => simp [entModify, entGet]
  | cons p t ih =>
    obtain ⟨j, x⟩ := p
    have : entModify ((j, x) :: t) slot f = (if j = slot then (j, f x) else (j, x)) :: entModify t slot f := rfl
    rw [this]
    by_cases hj : j = slot <;> by_cases hk : j = k <;> simp_all [entGet]

/-- A slot after every record of the table is changed. -/
@[simp] theorem entGet_entMap (t : EntTable) (f : EntRecord → EntRecord) (k : Nat) :
    entGet (entMap t f) k = (entGet t k).map f := by
  induction t with
  | nil => rfl
  | cons p t ih =>
    obtain ⟨j, x⟩ := p
    have : entMap ((j, x) :: t) f = (j, f x) :: entMap t f := rfl
    rw [this]
    simp only [entGet, ih]
    split <;> rfl

/-! ### The form of the table -/

/-- The form of the table in two parts: the order of the slots and the place of each record. -/
theorem entWf_iff (t : EntTable) :
    entWf t = true ↔
      (t.map (·.1)).Pairwise (· < ·) ∧ ∀ p ∈ t, p.1 < 4096 ∧ bucketOf p.1 = homeBucket p.2.media := by
  simp [entWf]

/-- The table after power-on reset has its form. -/
theorem entWf_reset : entWf State.reset.ent.table = true := by decide

/-- Emptying a slot keeps the form. -/
theorem entWf_entErase {t : EntTable} (h : entWf t = true) (slot : Nat) : entWf (entErase t slot) = true := by
  rw [entWf_iff] at h ⊢
  exact ⟨h.1.sublist (List.filter_sublist.map _), fun p hp => h.2 p (List.mem_filter.1 hp).1⟩

/-- Changing records without their media numbers keeps the form. -/
theorem entWf_map {t : EntTable} (h : entWf t = true) (g : Nat × EntRecord → Nat × EntRecord)
    (slot : ∀ p, (g p).1 = p.1) (media : ∀ p, (g p).2.media = p.2.media) : entWf (t.map g) = true := by
  rw [entWf_iff] at h ⊢
  refine ⟨?_, ?_⟩
  · have : (t.map g).map (·.1) = t.map (·.1) := by simp [slot]
    rw [this]; exact h.1
  · intro p hp
    obtain ⟨q, hq, rfl⟩ := List.mem_map.1 hp
    rw [slot, media]
    exact h.2 q hq

/-- Changing the record of a slot without its media number keeps the form. -/
theorem entWf_entModify {t : EntTable} (h : entWf t = true) (slot : Nat) (f : EntRecord → EntRecord)
    (media : ∀ r, (f r).media = r.media) : entWf (entModify t slot f) = true := by
  refine entWf_map h _ (fun p => ?_) (fun p => ?_) <;> by_cases hp : p.1 = slot <;> simp [hp, media]

/-- Changing every record without its media number keeps the form. -/
theorem entWf_entMap {t : EntTable} (h : entWf t = true) (f : EntRecord → EntRecord)
    (media : ∀ r, (f r).media = r.media) : entWf (entMap t f) = true :=
  entWf_map h _ (fun _ => rfl) fun p => media p.2

/-- What stands in a table after a record is put into a slot: that record, or what stood there before. -/
theorem mem_entPut {t : EntTable} {slot : Nat} {r : EntRecord} {p : Nat × EntRecord} (h : p ∈ entPut t slot r) :
    p = (slot, r) ∨ p ∈ t := by
  induction t with
  | nil => exact .inl (by simpa [entPut] using h)
  | cons q t ih =>
    obtain ⟨j, x⟩ := q
    simp only [entPut] at h
    split at h
    · simpa using h
    · split at h
      · rcases List.mem_cons.1 h with rfl | h
        · exact .inl rfl
        · exact .inr (by simp [h])
      · rcases List.mem_cons.1 h with rfl | h
        · exact .inr (by simp)
        · rcases ih h with rfl | h
          · exact .inl rfl
          · exact .inr (by simp [h])

/-- Putting a record into a slot of its home bucket keeps the form. -/
theorem entWf_entPut {t : EntTable} (h : entWf t = true) {slot : Nat} {r : EntRecord} (range : slot < 4096)
    (home : bucketOf slot = homeBucket r.media) : entWf (entPut t slot r) = true := by
  rw [entWf_iff] at h ⊢
  refine ⟨?_, fun p hp => ?_⟩
  · have order := h.1
    clear h
    induction t with
    | nil => simp [entPut]
    | cons q t ih =>
      obtain ⟨j, x⟩ := q
      simp only [List.map_cons, List.pairwise_cons] at order
      simp only [entPut]
      split
      · simp only [List.map_cons, List.pairwise_cons]
        refine ⟨fun k hk => ?_, order⟩
        rcases List.mem_cons.1 hk with rfl | hk
        · assumption
        · exact Nat.lt_trans ‹_› (order.1 k hk)
      · split
        · subst slot
          simpa using order
        · simp only [List.map_cons, List.pairwise_cons]
          refine ⟨fun k hk => ?_, ih order.2⟩
          obtain ⟨p, hp, rfl⟩ := List.mem_map.1 hk
          rcases mem_entPut hp with rfl | hp
          · show j < slot; omega
          · exact order.1 _ (List.mem_map_of_mem hp)
  · rcases mem_entPut hp with rfl | hp
    · exact ⟨range, home⟩
    · exact h.2 p hp

/-- A slot of a bucket's list lies in the bucket. -/
theorem bucketOf_mem {b k : Nat} (h : k ∈ bucketSlots b) : bucketOf k = b := by
  simp only [bucketSlots, List.mem_cons, List.not_mem_nil, or_false] at h
  rcases h with rfl | rfl | rfl | rfl <;> simp only [bucketOf] <;> omega

end Sys2Proof.Machine
end

