-- ==== Sys2Proof/Tests/Slice0.lean ====
section
/-! SUPPORT. Tests. Expected values come from the spec's worked figures and layouts, or from hand calculation by its
rules; the theorems test_meets_… show states and operands that meet the hypotheses of the statements. -/

namespace Sys2Proof.Tests

-- one theorem at a time: less memory
set_option Elab.async false

open Sys2Proof Sys2Proof.Machine

/-! ### Helpers -/

/-- A property of the next state of a command. -/
def sees (s : State) (i : Instr) (p : State → Bool) : Bool :=
  match exec i s with
  | .next t => p t
  | .fault _ => false
  | .refused _ => false

/-- The result that a command leaves in the result buffer. -/
def replies (s : State) (i : Instr) (rc : ResultCode) (data : List Byte) : Bool :=
  sees s i fun t => t.lnk.buffer.map (fun r => (r.code, r.data)) == some (rc, data)

/-- The geometry of spec 01, section 1.5.1. -/
def fourStations : Geometry :=
  { header := some ⟨2400000, 4⟩
    stations := [some ⟨0, some .right, some .left, 40, 90⟩, some ⟨800000, none, some .left, 0, 60⟩,
      some ⟨1600020, none, some .right, 0, 60⟩, some ⟨2400000, some .left, some .right, 40, 90⟩]
    segments := [some ⟨0, 120, 8000, false⟩, some ⟨150000, 300, 10000, true⟩, some ⟨420000, 450, 10000, true⟩,
      some ⟨700000, 200, 7000, false⟩, some ⟨1100000, 600, 10000, true⟩, some ⟨1900000, 250, 8000, false⟩]
      ++ List.replicate 42 none }

/-- The geometry of spec 05, section 5.3.1. -/
def twoStations : Geometry :=
  { header := some ⟨1800000, 2⟩
    stations := [some ⟨0, some .right, some .left, 40, 90⟩, none, none, some ⟨1800000, some .left, some .right, 40, 90⟩]
    segments := [some ⟨0, 300, 10000, false⟩, some ⟨600000, 450, 10000, false⟩, some ⟨1400000, 350, 10000, false⟩]
      ++ List.replicate 45 none }

/-- A car's report of both sides LOCKED at 4.9 s, with its weighing valid at 300 kg. -/
def lockedReport : Report := ⟨.locked, .locked, 2, false, false, true, false, 300, 4900000⟩

/-- A LIVE car that has sent three downlink frames. -/
def liveCar : CarState :=
  { CarState.powerOn with
    live := true, linkDue := some 5150000, downDue := 5010000, kept := [2, 1, 0], report := some lockedReport }

/-- PARKED with car A at station 3, at rest, referenced, both cars LIVE with fresh LOCKED reports, both terminal datum
inputs active, the clock at day 1,200, minute 600, at 5 s. -/
def parked (g : Geometry) : State :=
  let s := State.reset
  { s with
    now := 5000000
    geo := { s.geo with
      active := g, staged := fourStations, pA := g.len * 1000, referenced := true, datum := [true, false, false, true] }
    spd := { s.spd with restSince := some 0, restDue := none }
    tsr := { s.tsr with clockSet := true, day := 1200, minute := 600, minuteDue := some 5030000 }
    stp := { carA := liveCar, carB := liveCar }
    lnk := { s.lnk with attention := 0 } }

/-- A stop record in a phase, with a quota of 30 and no counts. -/
def stop (k : Nat) (p : StopPhase) : StopRecord :=
  { station := k, phase := p, wOpen := some 0, quota := 30, boarded := 0, held := 0, late := 0, alarm := false,
    doorFault := false, suspended := false, phaseDue := none, closeDue := none, close := none, reopening := false }

/-- DWELL at station 3 with car A's record in one phase and car B's in another. -/
def dwell (g : Geometry) (p q : StopPhase) : State :=
  let s := parked g
  (((({ s with
    haul := { s.haul with line := .dwell }
    osb := { s.osb with safetyReleased := true } }).setRecord .a (some (stop 3 p))).setRecord .b
      (some (stop 0 q))).deriveBoarding)

/-- The run of section 5.3.1. -/
def run1 : RunRecord := { target := 0, speed := 10000, up := false, origin := .dwell, gMax := 450, aEff := 599 }

/-- A speed channel that measures at a speed, its last counting edge at 4.99 s, phase A high, phase B low. -/
def measuring (speed : Nat) : SpeedChannel :=
  { SpeedChannel.powerOn with
    levelA := true, edgeA := some 4990000, capture := .measuring, lastEdge := 4990000, period := some 1250
    speed := speed, forward := true, standDue := some 5490000 }

/-- The two-station line in a line state with the run of section 5.3.1, v_perm = v_sup = v and v_meas = m, not at rest,
car A at pA in mm. -/
def travelling (l : LineState) (pA v m : Nat) : State :=
  let s := parked twoStations
  { s with
    geo := { s.geo with pA := pA * 1000, travelUp := false }
    spd := { s.spd with
      rope := measuring m, drive := measuring m, vMeas := m, restSince := none, restDue := none }
    haul := { s.haul with
      line := l, run := some run1, vPerm := v, vSup := v, driveEnable := l.running, driveDirHigh := false
      vDem := if l = .moving then v else 0, rampFrom := v }
    osb := { s.osb with
      safetyReleased := l.safetyReleased, serviceReleased := l.serviceReleased
      t1 := threshold v 16 150, t2 := threshold v 32 400 } }

/-- The car at rest in a line state that holds a run record. -/
def resting (l : LineState) (pA : Nat) : State :=
  let s := travelling l pA 0 0
  { s with spd := (parked twoStations).spd }

/-- TRIPPED in DWELL at station 3 with DRIVE FAULT and the wait elapsed, the cause gone (section 6.10.3). -/
def tripped : State :=
  let s := dwell fourStations .boarding .ready
  { s.setSuspended true with
    haul := { s.haul with line := .tripped }
    osb := { s.osb with
      first := some .driveFault, fromState := some .dwell, resetElapsed := true, safetyReleased := false } }

/-- The record of section 9.10.1: MULTI, group 4, rides 5, at slot 2,084. -/
def multi : EntRecord :=
  { media := 0x123456789A, kind := .multi, blocked := false, group := 4, rides := some 5, validFrom := none,
    validUntil := none, stations := none, daily := none, stamp := none, claim := none }

/-- An enabled gate at a station, ONLINE and NORMAL. -/
def gateAt (k : Nat) : Gate := { Gate.powerOn with station := some k, enabled := true, online := true, health := .normal }

/-- The gate map of section 9.10.1: gates 3 and 4 at station 1, the others unmapped. -/
def someGates : List Gate :=
  [Gate.powerOn, Gate.powerOn, gateAt 1, gateAt 1] ++ List.replicate 12 Gate.powerOn

/-- DWELL with car A at station 1 in BOARDING with 27 boarded of 30, last id 16, gate 3's response awaited (section
9.10.1). -/
def admitting : State :=
  let s := dwell fourStations .boarding .ready
  let s1 := ({ s with
    geo := { s.geo with pA := 800000000, datum := [false, true, true, false] }
    ent := { table := [(2084, multi), (2085, { multi with media := 0x209 })] }
    adm := { s.adm with
      gates := someGates, broadcastPending := false, polled := some 3, windowDue := some 5004000, lastClaimId := 16 } })
  (((s1.setRecord .a (some { stop 1 .boarding with boarded := 27 })).setRecord .b (some (stop 2 .ready))).deriveBoarding)

/-- The state of section 9.10.1 with claim 17 open at gate 3 for 3 persons, gate 3's response awaited. -/
def claiming : State :=
  let s := admitting
  let s1 := { s with
    ent := { table := [(2084, { multi with claim := some ⟨3, 17⟩ }), (2085, { multi with media := 0x209 })] }
    adm := { s.adm with
      gates := s.adm.gates.set 2 { gateAt 1 with toggle := some true, answer := .admission 17 3 2 }
      claims := [⟨17, 3, .a, 2084, 0x123456789A, 3, 13000000⟩], lastClaimId := 17 } }
  s1.setRecord .a (some { stop 1 .boarding with boarded := 27, held := 3 })

/-- The state after claim 17 has lapsed: its memory stands at gate 3. -/
def lapsed : State :=
  let s := admitting
  { s with adm := { s.adm with
      gates := s.adm.gates.set 2 { gateAt 1 with
        toggle := some true, answer := .admission 17 3 2, memory := some ⟨17, 0x123456789A, 3, 1, some .a⟩ }
      lastClaimId := 17 } }

/-! ### Well-formedness: each check refuses -/

theorem test_wf_invalid_known : Instr.wf (.invalid 0x01) = false := by decide
theorem test_wf_invalid_read : Instr.wf (.invalid 0x00) = false := by decide
theorem test_wf_frame_error_read : Instr.wf (.frameError 0) = false := by decide
theorem test_wf_busy_read : Instr.wf (.busy 0) = false := by decide
theorem test_wf_uplink_empty : Instr.wf (.uplink .a true []) = false := by decide
theorem test_wf_response_empty : Instr.wf (.gateResponse true []) = false := by decide
theorem test_wf_lapse_zero : Instr.wf (.claimLapse 0) = false := by decide
theorem test_wf_good : Instr.wf (.invalid 0x05) = true ∧ Instr.wf (.claimLapse 255) = true := by decide

/-! ### Frames, written byte by byte from sections 11.1 to 11.6 -/

/-- R188: the CRC of "123456789". -/
theorem test_crc : crc16 [0x31, 0x32, 0x33, 0x34, 0x35, 0x36, 0x37, 0x38, 0x39] = 0x29B1 := by decide +kernel

/-- R137 and section 8.6.1: home bucket 521. -/
theorem test_home_bucket :
    [0x123456789A, 0x0000000209, 0x0040000208, 0x0000100208, 0x0000000608, 0x008000020B, 0x00C000020A].map homeBucket
      = List.replicate 7 521 := by decide +kernel

theorem test_decode_set_clock :
    decodeFrame [0x01, 0x04, 0x04, 0xB0, 0x01, 0x68, 0x28, 0x27] = some (.setClock (.fields ⟨1200, 360⟩)) := by
  decide +kernel

theorem test_decode_get_parameter :
    decodeFrame [0x04, 0x01, 0x65, 0x1F, 0x6E] = some (.getParameter (.fields 0x65)) := by decide +kernel

theorem test_decode_segment :
    decodeFrame [0x12, 0x0B, 0x02, 0x00, 0x00, 0x06, 0x68, 0xA0, 0x01, 0xC2, 0x27, 0x10, 0x01, 0xAF, 0x37]
      = some (.writeStagedSegment (.fields ⟨2, 0, 420000, 450, 10000, 1⟩)) := by decide +kernel

theorem test_decode_home : decodeFrame [0x22, 0x01, 0x03, 0x27, 0x68] = some (.home (.fields 3)) := by decide +kernel

theorem test_decode_start_run :
    decodeFrame [0x30, 0x03, 0x00, 0x27, 0x10, 0x0B, 0x7E] = some (.startRun (.fields ⟨0, 10000⟩)) := by decide +kernel

theorem test_decode_emergency_stop : decodeFrame [0x33, 0x00, 0x4D, 0xC9] = some (.emergencyStop (.fields {})) := by
  decide +kernel

theorem test_decode_advance : decodeFrame [0x40, 0x01, 0x02, 0xC2, 0x42] = some (.advance (.fields 2)) := by
  decide +kernel

theorem test_decode_amend_restriction :
    decodeFrame [0x51, 0x08, 0x06, 0x0B, 0xB8, 0x02, 0x04, 0xB0, 0x02, 0x58, 0xB1, 0x17]
      = some (.amendRestriction (.fields ⟨6, 3000, 2, 1200, 600⟩)) := by decide +kernel

/-- Step 1 of section 8.6.1 as a transfer record: MULTI, rides 10, group 2, until day 1,250. -/
def add1 : EntTransfer :=
  { media := 0x123456789A, topBit := false, group := 2, blocked := false, kind := 1, presence := 3, fieldA := 0x0A00,
    untilDay := 1250, cap := 0, stations := 0, spare := 0, stampStation := 0, ridesToday := 0, rideDay := 0,
    stampDay := 0, stampMinute := 0, claimGate := 0, claimId := 0 }

theorem test_decode_add_entitlement :
    decodeFrame [0x60, 0x14, 0x12, 0x34, 0x56, 0x78, 0x9A, 0x11, 0x03, 0x0A, 0x00, 0x04, 0xE2, 0x00, 0x00, 0x00, 0x00,
      0x00, 0x00, 0x00, 0x00, 0x00, 0xB3, 0x5B] = some (.addEntitlement (.fields add1)) := by decide +kernel

theorem test_decode_set_gate :
    decodeFrame [0x70, 0x03, 0x03, 0x01, 0x01, 0xED, 0x16] = some (.setGate (.fields ⟨3, 1, 1⟩)) := by decide +kernel

theorem test_decode_status : decodeFrame [0x80, 0x00, 0x06, 0x97] = some (.readLineStatus (.fields {})) := by
  decide +kernel

theorem test_decode_wrong_length :
    decodeFrame [0x10, 0x01, 0xAA, 0xA8, 0x6E] = some (.writeStagedHeader .wrongLength) := by decide +kernel

theorem test_decode_unknown : decodeFrame [0x05, 0x00, 0xE2, 0xFA] = some (.invalid 0x05) := by decide +kernel

theorem test_decode_bad_crc : decodeFrame [0x83, 0x00, 0x53, 0xC5] = some (.frameError 0x83) := by decide +kernel

theorem test_judge_busy : judgeFrame true [0x83, 0x00, 0x53, 0xC4] = some (.busy 0x83) := by decide +kernel

/-- The link with a result of the one data byte AAh in the buffer and these rows to be taken. -/
def linkWith (waiting : List Instr) : State :=
  let s := State.reset
  { s with pending := waiting, lnk := { s.lnk with buffer := some ⟨.ok, 0x80, [0xAA]⟩ } }

/-- R179 and section 10.1.2: the status and fill, EXECUTING and fill, and the status with the result and its CRC. -/
theorem test_read_idle : State.reset.shiftedOut [0, 0, 0] = [1, 0, 0] := by decide +kernel
theorem test_read_executing : (linkWith [.commitGeometry (.fields {})]).shiftedOut [0, 0, 0] = [2, 0, 0] := by decide +kernel
theorem test_read_result :
    ((linkWith []).shiftedOut (List.replicate 8 0)).take 5 = [3, 0, 0x80, 1, 0xAA]
      ∧ ((linkWith []).shiftedOut (List.replicate 8 0)).getD 7 9 = 0 := by decide +kernel

/-- R175: a command frame has the status byte shifted out in every byte. -/
theorem test_command_frame_output :
    (linkWith [.sense (.fields {})]).shiftedOut [0x82, 0, 0x6A, 0xF1] = [2, 2, 2, 2] := by decide +kernel

/-! ### Worked figures -/

/-- Section 2.2.1 and R21: pulse distance over period. -/
theorem test_channel_speed :
    [(12500, 40000), (12500, 20000), (12500, 12500), (12500, 2121), (12500, 900)].map (fun p => channelSpeed p.1 p.2)
      = [312, 625, 1000, 5893, 13000] := by decide +kernel

/-- Sections 4.7.1 and 4.7.2: readings scaled. -/
theorem test_scaled :
    (scaledValue 0 500 1790, scaledValue (-400) 600 1300, scaledValue 0 3000 2400) = (154, -244, 1500) := by
  decide +kernel

/-- R64 and section 5.7.1: the duty of a demand. -/
theorem test_pwm_steps : (pwmSteps 5894, pwmSteps 12000) = (1856, 3780) := by decide +kernel

/-- Section 5.7.1: square roots. -/
theorem test_isqrt : (isqrt 34742000, isqrt 1198000, isqrt 239600, isqrt 42544000) = (5894, 1094, 489, 6522) := by
  decide +kernel

/-- Section 5.7.1: the stop envelope at 30,000, 2,000, 1,200, 1,000, 150 and −151 mm. -/
theorem test_envelope :
    [30000, 2000, 1200, 1000, 150].map (fun r => (travelling .moving r 5894 5894).envelope run1)
      = [5894, 1094, 500, 500, 0] := by decide +kernel

/-- Section 6.10.1: the thresholds of v_sup = 5,894, and those of section 5.7.3. -/
theorem test_thresholds :
    (threshold 5894 16 150, threshold 5894 32 400) = (6412, 7030)
      ∧ [7995, 7500, 6000, 4500, 4000].map (threshold · 16 150) = [8644, 8118, 6525, 4931, 4400] := by decide +kernel

/-- The state of section 5.3.1: DWELL at station 3, both READY, loads 160 and 0. -/
def loaded : State := ((dwell twoStations .ready .ready).setLoad .a 160).setLoad .b 0

/-- Section 5.3.1: the run record. -/
theorem test_new_run : loaded.newRun 0 10000 .dwell = run1 := by decide +kernel

/-- Section 5.7.4: the departure. -/
theorem test_start_run :
    sees loaded (.startRun (.fields ⟨0, 10000⟩)) (fun t =>
      t.haul.line == .starting && t.haul.run == some run1 && t.haul.vSup == 10000 && t.haul.vDem == 0
        && t.haul.torqueDue == some 8000000 && t.haul.haltCause == .noCause) = true := by decide +kernel

/-- Section 5.7.2: the restriction ahead. -/
def restricted : State :=
  (travelling .moving 600000 10000 10000).setEntry 6 (some ⟨true, 500000, 560000, 3000, .both, none, none, none⟩)
theorem test_restriction_drop : restricted.permitted = 6522 := by decide +kernel

/-- Section 5.7.3, sample 1. -/
theorem test_haul_sample :
    sees ((travelling .moving 600000 8000 7994).setEntry 6 (some ⟨true, 590000, 610000, 4000, .both, none, none, none⟩))
      .haulSample (fun t =>
        t.haul.vPerm == 4000 && t.haul.vDem == 4000 && t.haul.vSup == 7995 && t.osb.t1 == 8644
          && t.haul.line == .moving) = true := by decide +kernel

/-- Section 5.7.1: 151 mm beyond the berth. -/
theorem test_overrun :
    sees (let s := travelling .moving 0 0 0; { s with haul := { s.haul with run := some { run1 with target := 3, up := true } },
                                                      geo := { s.geo with pA := 1800151000, travelUp := true } })
      .haulSample (fun t => t.haul.line == .tripped && t.osb.first == some .overrun) = true := by decide +kernel

/-- Section 1.5.2: the datum edge of station 2, then of station 1; a lag of 300 passes and one of 310 is a fault. -/
def approaching (pA : Nat) : State :=
  let s := travelling .moving pA 5000 5000
  { s with
    geo := { s.geo with active := fourStations, travelUp := true }
    haul := { s.haul with run := some { run1 with target := 1, up := true } } }
theorem test_datum_other_car :
    sees (approaching 798800) (.datumEdge 2) (fun t => t.posA == 798800 && t.geo.referenced) = true := by decide +kernel
theorem test_datum_correction :
    sees (approaching 798820) (.datumEdge 1) (fun t => t.posA == 799000 && t.geo.referenced) = true := by decide +kernel
theorem test_datum_lag :
    sees (approaching 798680) (.datumEdge 2) (fun t => t.geo.referenced && t.haul.line == .moving) = true
      ∧ sees (approaching 798670) (.datumEdge 2) (fun t => !t.geo.referenced && t.haul.line == .halted
          && t.haul.haltCause == .positionFault) = true := by decide +kernel

/-- Section 1.5.1: the commit, and station 2 at 1,600,080. -/
def inspecting (g : Geometry) : State :=
  let s := parked twoStations
  { s with geo := { s.geo with staged := g, inspection := true } }
def skewed : Geometry :=
  { fourStations with stations := fourStations.stations.set 2 (some ⟨1600080, none, some .right, 0, 60⟩) }
theorem test_commit :
    sees (inspecting fourStations) (.commitGeometry (.fields {})) (fun t =>
      !t.geo.referenced && t.geo.active.exposedRuns == [(150000, 700000), (1100000, 1900000)]) = true := by decide +kernel
/-- Section 10.1.2: what the reads at 100, 250 and 700 µs return, and the status at 800 µs; READ LINE STATUS is refused
BUSY while COMMIT GEOMETRY executes, and is sent again at 800 µs. -/
def busySequence : State :=
  let s := inspecting fourStations
  { s with
    lnk := { s.lnk with buffer := some ⟨.ok, 0x02, [0]⟩ }
    pending := [.busy 0x80, .commitGeometry (.fields {})] }
def readsAlong (s : State) : Nat → List (List Byte)
  | 0 => []
  | n + 1 => s.shiftedOut [0, 0, 0, 0] :: match step s with
    | .next t => readsAlong t n
    | .fault _ => []
    | .refused _ => []
theorem test_busy_sequence :
    readsAlong busySequence 3 = [[2, 0, 0, 0], [2, 1, 0x80, 0], [3, 0, 0x14, 0]]
      ∧ (sees { inspecting fourStations with pending := [.readLineStatus (.fields {})] } (.commitGeometry (.fields {}))
          fun t => t.statusByte == 2 && t.lnk.buffer == some ⟨.ok, 0x14, []⟩) = true := by decide +kernel
theorem test_commit_refused :
    replies (inspecting skewed) (.commitGeometry (.fields {})) .badGeometry [4] = true := by decide +kernel

/-- Section 6.10.1: 6,412 passes, 6,413 intervenes, 7,031 trips with OVERSPEED alone. -/
theorem test_comparison :
    [6412, 6413, 7031].map (fun v =>
      let t := (travelling .moving 30000 5894 v).compare
      (t.haul.line, t.osb.first, t.osb.further))
      = [(.moving, none, 0), (.intervening, none, 0), (.tripped, some .overspeed, 0)] := by decide +kernel

/-- Section 6.10.2: the release passes at 5,800 and fails at 5,801; the ramp restarts from v_meas. -/
theorem test_release :
    [5800, 5801].map (fun v =>
      let t := (travelling .intervening 600000 6000 v).compare
      (t.haul.line, t.haul.rampFrom == v)) = [(.moving, true), (.intervening, false)] := by decide +kernel

/-- Section 6.10.3: the trip from DWELL, the reset refused, and the reset that keeps the records. -/
theorem test_drive_fault :
    sees (dwell fourStations .boarding .ready) (.driveFaultInput true) (fun t =>
      t.haul.line == .tripped && t.osb.first == some .driveFault && t.osb.resetDue == some 10000000 && t.osb.hold
        && t.adm.boarding == [.suspended, .closed, .closed, .suspended]) = true := by decide +kernel
theorem test_reset_trip :
    replies { tripped with osb := { tripped.osb with resetElapsed := false } } (.resetTrip (.fields {})) .refused [0x11] = true
      ∧ replies { tripped with osb := { tripped.osb with driveFault := true } } (.resetTrip (.fields {})) .refused [0x4A] = true
      ∧ replies { tripped with osb := { tripped.osb with estop := true } } (.resetTrip (.fields {})) .refused [0x03] = true
      ∧ sees tripped (.resetTrip (.fields {})) (fun t => t.haul.line == .dwell && t.osb.first == none
          && t.adm.boarding == [.closed, .closed, .closed, .opened]) = true := by decide +kernel

/-- Section 6.10.4: a slip trip releases the hold; the record of the run stays. -/
theorem test_slip_trip :
    sees { travelling .moving 900000 8000 7142 with
        spd := { (travelling .moving 900000 8000 7142).spd with slipDue := some 5500000, slipPositive := true } }
      .slipTimerExpiry (fun t => t.haul.line == .tripped && t.osb.first == some .slip && !t.osb.hold
        && t.osb.vTrip == 7142 && t.haul.run == some run1) = true := by decide +kernel

/-- Section 7.11: the entry to DWELL at station 3 (time 0). -/
theorem test_paired_stop :
    sees { travelling .moving 1800000 0 0 with
        geo := (parked fourStations).geo
        spd := { (parked fourStations).spd with restSince := none, restDue := some 5000000 } }
      .restConfirm (fun t => t.haul.line == .dwell && t.released .a .left && !t.released .a .right
        && t.released .b .right && ((t.record .a).map (·.phaseDue)) == some (some 45000000)) = true := by decide +kernel

/-- Section 7.11 at 46 s: the exit side LOCKED, load 300 kg: BOARDING with W_open 4 and quota 196. -/
def exiting : State :=
  (dwell fourStations .alighting .alighting).setRecord .a (some { stop 3 .alighting with
    wOpen := none, quota := 0, close := some ⟨true, 1, false⟩, closeDue := some 20000000 })
theorem test_exit_confirmed :
    sees exiting (.uplink .a true [0x01, 0x02, 0x33, 0x04, 0x01, 0x2C, 0xB2, 0x19]) (fun t =>
      ((t.record .a).map fun r => (r.phase, r.wOpen, r.quota, r.phaseDue))
        == some (.boarding, some 4, 196, some 95000000) && t.released .a .right) = true := by decide +kernel

/-- Section 8.6.1, step 1 into an empty bucket: slot 2,084. -/
theorem test_add_entitlement :
    replies (parked fourStations) (.addEntitlement (.fields add1)) .ok [0x08, 0x24, 0, 0, 0, 0, 0] = true := by
  decide +kernel

/-- Bucket 521 after step 4 of section 8.6.1. -/
def fullBucket : State :=
  { parked fourStations with ent := { table :=
      [(2084, { multi with validUntil := some 1250 }),
        (2085, { multi with media := 0x209, kind := .single, group := 1, rides := none, validUntil := some 1190 }),
        (2086, { multi with media := 0x0040000208, kind := .period, group := 1, rides := none, validFrom := some 1100,
                            validUntil := some 1180 }),
        (2087, { multi with media := 0x0000100208, kind := .staff, group := 1, rides := none })] } }
/-- Section 8.6.1, step 5: SINGLE 00_0000_0608h until 1,230 reclaims slot 2,086. -/
def add5 : EntTransfer := { add1 with media := 0x608, kind := 0, group := 1, presence := 2, fieldA := 0, untilDay := 1230 }
theorem test_reclaim :
    replies fullBucket (.addEntitlement (.fields add5)) .ok [0x08, 0x26, 0x00, 0x40, 0x00, 0x02, 0x08] = true
      ∧ replies fullBucket (.addEntitlement (.fields { add1 with media := 0x209 })) .duplicate [] = true := by decide +kernel
theorem test_count :
    replies fullBucket (.count (.fields {})) .ok [0, 4, 0, 0, 0, 4, 0x02, 0x09] = true := by decide +kernel

/-- Section 9.10.1, step 1: PRESENT at gate 3, toggle 1: ADMIT 17, 3 persons, rides left 2. -/
theorem test_admission :
    sees admitting (.gateResponse true [0x03, 0x03, 0x12, 0x34, 0x56, 0x78, 0x9A, 0x0E, 0x00]) (fun t =>
      t.adm.claims == [⟨17, 3, .a, 2084, 0x123456789A, 3, 13000000⟩]
        && ((t.record .a).map fun r => (r.boarded, r.held)) == some (27, 3)
        && ((t.gate 3).map fun g => (g.answer, g.replyPending)) == some (.admission 17 3 2, true)) = true := by decide +kernel

/-- Section 9.10.1, step 4: PASSED 17 of 2 persons: boarded 29, held 0, rides 3. -/
theorem test_passage :
    sees claiming (.gateResponse true [0x03, 0x04, 0x11, 0x02, 0xD3, 0xDC]) (fun t =>
      t.adm.claims == [] && ((t.record .a).map fun r => (r.boarded, r.held)) == some (29, 0)
        && ((entGet t.ent.table 2084).map fun r => (r.rides, r.claim)) == some (some 3, none)
        && ((t.gate 3).map (·.answer)) == some .noAnswer) = true := by decide +kernel

/-- Section 9.10.2: the lapse leaves a memory, and the late passage counts as late. -/
theorem test_lapse :
    sees claiming (.claimLapse 17) (fun t =>
      ((t.gate 3).map (·.memory)) == some (some ⟨17, 0x123456789A, 3, 1, some .a⟩)
        && ((t.record .a).map fun r => (r.boarded, r.held, r.late)) == some (27, 0, 0)) = true := by decide +kernel
theorem test_late_passage :
    sees lapsed (.gateResponse true [0x03, 0x04, 0x11, 0x02, 0xD3, 0xDC]) (fun t =>
      ((t.record .a).map fun r => (r.boarded, r.held, r.late)) == some (29, 0, 2)
        && ((t.gate 3).map fun g => (g.memory, g.answer)) == some (none, .late 17)
        && ((entGet t.ent.table 2084).bind (·.rides)) == some 3) = true := by decide +kernel

/-- Section 9.10.4: slots 1 and 4 of the arbiter. -/
def arbiter (count : Nat) (pend : Bool) : State :=
  let s := claiming
  { s with adm := { s.adm with
      gates := [gateAt 3, gateAt 3, Gate.powerOn, Gate.powerOn, gateAt 0] ++ List.replicate 11 Gate.powerOn
      claims := [⟨17, 5, .a, 2084, 0x123456789A, 3, 13000000⟩]
      pollCount := count, slotPolls := false, normalPtr := 5, broadcastPending := pend, polled := none, windowDue := none } }
theorem test_slots :
    [arbiter 0 false, arbiter 3 false, arbiter 0 true].map State.slotChoice
      = [.urgentPoll 5, .normalPoll 1, .broadcast] := by decide +kernel

/-- Section 9.10.4: the poll count within the slot, the gate polled and the pointers, over slots 1 to 4, and over slots 5
and 6 after slot 4 with a broadcast pending. The count within a slot is the one before it, since it rises after it. -/
def slots (s : State) : Nat → List (Nat × Option Nat × Nat × Nat)
  | 0 => []
  | n + 1 =>
    let t := s.beginSlot
    (t.adm.pollCount, t.adm.polled, t.adm.normalPtr, t.adm.urgentPtr) :: slots t n
theorem test_slot_sequence :
    slots (arbiter 0 false) 4
        = [(0, some 5, 5, 5), (1, some 5, 5, 5), (2, some 5, 5, 5), (3, some 1, 1, 5)]
      ∧ (let s := (arbiter 3 false).beginSlot
        slots { s with adm := { s.adm with broadcastPending := true, urgentPtr := 5 } } 2)
          = [(0, none, 1, 5), (0, some 5, 1, 5)] := by decide +kernel

/-- R64 and R32: the PWM period and the minute boundary at day's end. -/
theorem test_pwm_period :
    sees (travelling .moving 30000 5894 5894) .pwmPeriod (fun t => t.haul.pwmDuty == 1856) = true := by decide +kernel
theorem test_midnight :
    sees { parked fourStations with tsr := { (parked fourStations).tsr with minute := 1439 } } .minuteBoundary (fun t =>
      t.tsr.day == 1201 && t.tsr.minute == 0 && t.tsr.minuteDue == some 65030000) = true := by decide +kernel

/-- Section 3.7.1: the first restriction goes to entry 6, PENDING until minute 420 of day 1,200. -/
def early : State :=
  { parked fourStations with
    tsr := { (parked fourStations).tsr with minute := 360 }
    params := paramSet paramTyps 0x65 400 }
def addA : AddRestrictionArgs := ⟨7, 1050000, 1250000, 4000, 1, 1200, 420, 1200, 600, 3117⟩
theorem test_add_restriction :
    replies early (.addRestriction (.fields addA)) .ok [6] = true
      ∧ sees early (.addRestriction (.fields { addA with presence := 0, limit := 250 })) (fun t =>
          ((t.entry 6).map fun r => (r.limit, r.inForce)) == some (400, true)) = true := by decide +kernel

/-- Sections 4.7.1 and 4.7.2: W1 counts and a reading below 640 is a fault. -/
theorem test_monitor :
    sees (parked fourStations) (.monitorSample .wind 1790) (fun t =>
      t.mon.wind.value == 154 && t.mon.w1.raiseCount == 1 && !t.mon.w1.raised) = true
      ∧ sees (parked fourStations) (.monitorSample .tension 310) (fun t =>
          t.mon.tension.fault && t.mon.overtension.raised && !t.mon.slack.raised) = true := by decide +kernel

/-- R112 and section 11.6: the downlink of a car at rest in DWELL, hold 1, both sides closed. -/
theorem test_downlink :
    sees (dwell fourStations .ready .ready) (.downlink .a) (fun t =>
      t.stp.carA.lastFrame == [0x01, 0x03, 0x1A, 0x01, 0x57, 0xBD] && t.stp.carA.kept == [3, 2, 1, 0]) = true := by
  decide +kernel

/-- Section 10.7.1: SENSE empties the set and returns it. -/
theorem test_sense :
    replies State.reset (.sense (.fields {})) .ok [0, 1] = true
      ∧ sees State.reset (.sense (.fields {})) (fun t => !t.attentionLow) = true := by decide +kernel

/-! ### States and operands that meet the hypotheses of the statements -/

theorem test_meets_StepRunsTheFrontCommand :
    ({ parked fourStations with pending := [.haulSample, .pwmPeriod] } : State).pending = .haulSample :: [.pwmPeriod]
      ∧ (parked fourStations).pending = [] := by decide +kernel

theorem test_meets_AttentionCausesStayUntilSensedOrReset :
    (∃ t, exec .haulSample (parked fourStations) = .next t) ∧ (∀ p, Instr.haulSample ≠ .sense p)
      ∧ (∀ p, Instr.haulSample ≠ .softReset p) ∧ ∀ x, Instr.haulSample ≠ .powerOnReset x :=
  ⟨⟨_, rfl⟩, nofun, nofun, nofun⟩

theorem test_meets_LinkCommandAnswersAndRefusalChangesNothing :
    linkCode (.home (.fields 1)) = some 0x22 ∧ replies (parked fourStations) (.home (.fields 1)) .badParameter [] = true
      ∧ linkCode (.lookUpEntitlement .wrongLength) = some 0x65 ∧ hasWrongLength (.lookUpEntitlement .wrongLength) = true
      ∧ replies (dwell fourStations .ready .boarding) (.startRun (.fields ⟨0, 500⟩)) .refused [0x09] = true
      ∧ replies (inspecting skewed) (.commitGeometry (.fields {})) .badGeometry [4] = true
      ∧ replies (parked fourStations) (.enterInspection (.fields {})) .ok [] = true := by decide +kernel

/-- A step is taken from each of these states by its front command. -/
def stepping (s : State) (i : Instr) : State := s.push i

theorem test_meets_OutputsAndSpeedsFollowTheLineState :
    lineInv (stepping (travelling .moving 30000 5894 5894) .haulSample)
      ∧ ∃ t, step (stepping (travelling .moving 30000 5894 5894) .haulSample) = .next t := by
  unfold lineInv
  exact ⟨by decide +kernel, _, rfl⟩

theorem test_meets_SpeedChannelsAgreeWithTheRestFlag :
    speedInv (stepping (travelling .moving 30000 5894 5894) (.countingEdge .rope false 5000000))
      ∧ ∃ t, step (stepping (travelling .moving 30000 5894 5894) (.countingEdge .rope false 5000000)) = .next t := by
  unfold speedInv channelInv
  exact ⟨by decide +kernel, _, rfl⟩

theorem test_meets_EntitlementTableStaysInItsBuckets :
    tableInv (stepping fullBucket (.addEntitlement (.fields add5)))
      ∧ ∃ t, step (stepping fullBucket (.addEntitlement (.fields add5))) = .next t := by
  unfold tableInv
  exact ⟨by decide +kernel, _, rfl⟩

theorem test_meets_ListsClockAndParametersStayInRange :
    (shapeInv (stepping early .minuteBoundary) ∧ clockInv (stepping early .minuteBoundary)
        ∧ paramsWf (stepping early .minuteBoundary).params = true)
      ∧ ∃ t, step (stepping early .minuteBoundary) = .next t := by
  unfold shapeInv clockInv
  exact ⟨by decide +kernel, _, rfl⟩

theorem test_meets_PositionAndSpansStayInBounds :
    (shapeInv (stepping restricted .haulSample) ∧ clockInv (stepping restricted .haulSample)
        ∧ paramsWf (stepping restricted .haulSample).params = true)
      ∧ positionInv (stepping restricted .haulSample) ∧ ∃ t, step (stepping restricted .haulSample) = .next t := by
  unfold shapeInv clockInv positionInv geometryInv
  exact ⟨by decide +kernel, by decide +kernel, _, rfl⟩

/-- DWELL with a claim open meets admissionInv. -/
theorem test_admissionInv (i : Instr) : admissionInv (stepping claiming i) := by
  refine ⟨?_, ?_, ?_, ?_, ?_, ?_, ?_, ?_⟩
  · change shapeInv claiming
    unfold shapeInv
    decide +kernel
  · change tableInv claiming
    unfold tableInv
    decide +kernel
  · change (claiming.haul.line = .dwell ∨ claiming.haul.line = .tripped
      ∨ (claiming.haul.line = .starting ∧ StopPhase.boarding = .ready ∧ StopPhase.ready = .ready
          ∧ ∃ r ∈ claiming.haul.run, r.origin = .dwell)) ∧ 1 ≤ 3 ∧ 2 = 3 - 1
      ∧ false = decide (claiming.haul.line = .tripped) ∧ false = decide (claiming.haul.line = .tripped)
    exact ⟨Or.inl rfl, by decide, rfl, rfl, rfl⟩
  · change runInv claiming
    unfold runInv
    decide +kernel
  · change boardingInv claiming
    unfold boardingInv
    decide +kernel
  · change 3 = heldFor .a claiming.adm.claims ∧ 0 ≤ 27 ∧ 27 ≤ 250 ∧ 27 - 0 + 3 ≤ 30 ∧ 30 ≤ claiming.capacity
      ∧ (StopPhase.boarding = .arrived ∨ StopPhase.boarding = .alighting → 27 = 0 ∧ 3 = 0)
      ∧ (StopPhase.boarding = .ready → 3 = 0)
    decide +kernel
  · change 0 = heldFor .b claiming.adm.claims ∧ 0 ≤ 0 ∧ 0 ≤ 250 ∧ 0 - 0 + 0 ≤ 30 ∧ 30 ≤ claiming.capacity
      ∧ (StopPhase.ready = .arrived ∨ StopPhase.ready = .alighting → 0 = 0 ∧ 0 = 0)
      ∧ (StopPhase.ready = .ready → 0 = 0)
    decide +kernel
  · change claimsInv claiming
    unfold claimsInv
    decide +kernel

theorem test_meets_ClaimsRecordsAndTableAgree :
    paramsWf (stepping claiming (.claimLapse 17)).params = true ∧ admissionInv (stepping claiming (.claimLapse 17))
      ∧ ∃ t, step (stepping claiming (.claimLapse 17)) = .next t :=
  ⟨by decide +kernel, test_admissionInv _, _, rfl⟩

theorem test_meets_DecodeOfEncodeIsTheCommand :
    encodeFrame (.startRun (.fields ⟨0, 10000⟩)) = some [0x30, 0x03, 0x00, 0x27, 0x10, 0x0B, 0x7E] := by decide +kernel

/-- The clauses of R175 to R177: code 0; length 61; a byte short of length 60; a byte over; a wrong CRC; a right one. -/
theorem test_meets_ReleasedFrameIsJudgedInOrder :
    (0x83 : Byte) ≠ 0 ∧ 60 < (61 : Byte).toNat ∧ (60 : Byte).toNat ≤ 60
      ∧ (List.replicate 61 (0 : Byte)).length < (60 : Byte).toNat + 2
      ∧ (60 : Byte).toNat + 2 < (List.replicate 63 (0 : Byte)).length
      ∧ [0x53, 0xC5] ≠ be2 (crc16 (0x83 :: 0 :: [])).toNat ∧ [0x53, 0xC4] = be2 (crc16 (0x83 :: 0 :: [])).toNat
      ∧ [0xE2, 0xFA] = be2 (crc16 (0x05 :: 0 :: [])).toNat ∧ (0x05 : Byte).toNat ∉ commandCodes
      ∧ (0x83 : Byte).toNat ∈ commandCodes := by decide +kernel

/-- The link while a command executes, with the last result or a BUSY in the buffer, and after its end. -/
theorem test_meets_FrameOutcomesWriteTheResultBuffer :
    let c : Instr := .commitGeometry (.fields {})
    let s := linkWith [c]
    let b := s.setBusy 0x83
    linkCode c = some 0x14 ∧ commandWaits [] = false ∧ linkCode .haulSample = none
      ∧ s.executing = true ∧ s.statusByte = 2 ∧ (∃ r ∈ s.lnk.buffer, r.code ≠ .busy)
      ∧ b.executing = true ∧ b.lnk.buffer = some ⟨.busy, 0x83, []⟩
      ∧ (linkWith []).executing = false ∧ (linkWith []).statusByte = 3
      ∧ (linkWith []).lnk.buffer = some ⟨.ok, 0x80, [0xAA]⟩ ∧ State.reset.statusByte = 1 := by decide +kernel

theorem test_meets_FrameOutcomes_events :
    ∀ (code : Byte) (x : Levels),
      Instr.haulSample ≠ .frameError code ∧ Instr.haulSample ≠ .invalid code ∧ Instr.haulSample ≠ .powerOnReset x :=
  fun _ _ => ⟨nofun, nofun, nofun⟩

theorem test_meets_ClockAndParameterReadsReturnWhatStands :
    let s := { early with tsr := State.reset.tsr }
    clockInv s ∧ s.tsr.clockSet = false ∧ paramRow (0x27 : Byte).toNat = none
      ∧ paramRow (0x65 : Byte).toNat = some ⟨0x65, false, 300, 500, 1000⟩ := by
  unfold clockInv
  decide +kernel

/-- R181: no such number; below Min; above Max; class S outside PARKED; stored at Min; refused by an ordering (0x13 below
0x12 at its Min 200, 0x13 being 300). -/
theorem test_meets_SetParameterStoresAValueThatPasses :
    paramsWf early.params = true ∧ paramRow (0x27 : Byte).toNat = none
      ∧ paramRow (0x12 : Byte).toNat = some ⟨0x12, true, 200, 1000, 5000⟩
      ∧ (199#32).toInt < 200 ∧ 5000 < (5001#32).toInt ∧ (dwell fourStations .ready .ready).haul.line ≠ .parked
      ∧ early.haul.line = .parked ∧ 200 ≤ (301#32).toInt ∧ (5000#32).toInt ≤ 5000
      ∧ (∀ v ∈ [(301 : Int), 5000], (∀ o ∈ orderings, o.low = 0x12 → o.kind.holds v (paramGet early.params o.high) = true)
          ∧ ∀ o ∈ orderings, o.high = 0x12 → o.kind.holds (paramGet early.params o.low) v = true)
      ∧ (∃ o ∈ orderings, o.high = 0x12 ∧ o.kind.holds (paramGet early.params o.low) (200#32).toInt = false)
      ∧ (∃ o ∈ orderings, o.low = 0x13 ∧ o.kind.holds (1000#32).toInt (paramGet early.params o.high) = false) := by
  decide +kernel

/-- An entry due at minute 420 and one whose until-time is minute 420, as the clock is set to it. -/
def dueState : State :=
  (early.setEntry 6 (some ⟨false, 0, 1000, 4000, .up, some ⟨1200, 420⟩, some ⟨1200, 600⟩, some 3117⟩)).setEntry 7
    (some ⟨true, 0, 1000, 4000, .up, none, some ⟨1200, 361⟩, none⟩)

theorem test_meets_SetClockAndMinuteBoundaryMakeThePasses :
    let last := { dueState with tsr := { dueState.tsr with day := 65535, minute := 1439 } }
    (∀ s ∈ [dueState, last], s.tsr.minuteDue = some 5030000 ∧ clockInv s ∧ s.tsr.ended.length ≤ 8
        ∧ s.tsr.table.length = 32)
      ∧ 1439 < (1440 : BitVec 16).toNat ∧ (1439 : BitVec 16).toNat ≤ 1439
      ∧ (last.tsr.day = 65535 ∧ last.tsr.minute = 1439) ∧ ¬(dueState.tsr.day = 65535 ∧ dueState.tsr.minute = 1439)
      ∧ expiredRecords ⟨1200, 420⟩ dueState.tsr.table = [⟨7, none, ⟨1200, 420⟩⟩]
      ∧ expiredRecords ⟨1200, 361⟩ dueState.tsr.table = [⟨7, none, ⟨1200, 361⟩⟩] := by
  unfold clockInv
  decide +kernel

theorem test_meets_StagedWritesReplaceOneEntry :
    (let a : StationArgs := ⟨3, 0, 2400000, 2, 1, 40, 90⟩
      let b := { a with marker := 1, exitSide := 9 }
      a.index.toNat ≤ 3 ∧ a.marker = 0 ∧ a.exitSide.toNat ≤ 2 ∧ a.boardSide.toNat ≤ 2 ∧ b.index.toNat ≤ 3 ∧ b.marker = 1)
      ∧ (let a : StationArgs := ⟨4, 2, 0, 3, 3, 0, 0⟩
        3 < a.index.toNat ∧ 1 < a.marker.toNat ∧ 2 < { a with marker := 0 }.exitSide.toNat ∧ 2 < a.boardSide.toNat)
      ∧ (let a : SegmentArgs := ⟨47, 0, 0, 1023, 0, 1⟩
        a.index.toNat ≤ 47 ∧ a.marker = 0 ∧ a.gradient.toNat ≤ 1023 ∧ a.exposed.toNat ≤ 1)
      ∧ (let a : SegmentArgs := ⟨48, 2, 0, 1024, 0, 2⟩
        47 < a.index.toNat ∧ 1 < a.marker.toNat ∧ 1023 < a.gradient.toNat ∧ 1 < a.exposed.toNat) := by decide +kernel

theorem test_meets_ReadGeometryReturnsTheItem :
    let s := parked twoStations
    s.geo.active.header = some ⟨1800000, 2⟩ ∧ Geometry.empty.header = none ∧ 3 < (4 : Byte).toNat
      ∧ s.geo.active.station 2 = none ∧ (s.geo.active.station 3).isSome ∧ 47 < (48 : Byte).toNat
      ∧ s.geo.active.segments.getD 47 none = none ∧ (s.geo.active.segments.getD 2 none).isSome
      ∧ (s.geo.staged.station 1).isSome := by decide +kernel

/-- COMMIT: outside inspection; a first check that fails at 1, 4 and 7; and every check passing. -/
def steep : Geometry := { fourStations with segments := fourStations.segments.set 5 (some ⟨1900000, 801, 8000, false⟩) }
def checksOf (s : State) : List Bool :=
  let g := s.geo.staged
  [checkHeader g, checkSegments g, checkTerminals g, checkIntermediates g, checkSpacing s.datumHalf g, checkExposed g,
    checkRanges g]
theorem test_meets_CommitGeometryReplacesTheActiveCopy :
    (parked fourStations).geo.inspection = false ∧ (inspecting fourStations).haul.line = .parked
      ∧ (inspecting fourStations).geo.inspection = true ∧ checksOf (inspecting fourStations) = List.replicate 7 true
      ∧ (checksOf (inspecting Geometry.empty))[0]? = some false
      ∧ (checksOf (inspecting skewed)).take 4 = [true, true, true, false]
      ∧ checksOf (inspecting steep) = List.replicate 6 true ++ [false]
      ∧ (inspecting fourStations).tsr.table.length = 32 := by decide +kernel

theorem test_meets_InspectionModeChangesInParked :
    (parked fourStations).haul.line = .parked ∧ (parked fourStations).geo.inspection = false
      ∧ (inspecting fourStations).haul.line = .parked ∧ (inspecting fourStations).geo.inspection = true
      ∧ (dwell fourStations .ready .ready).haul.line ≠ .parked := by decide +kernel

theorem test_meets_HomeFixesThePositionAtATerminal :
    let s := parked fourStations
    (1 : Byte) ≠ 0 ∧ (1 : Byte) ≠ 3 ∧ (dwell fourStations .ready .ready).haul.line ≠ .parked
      ∧ State.reset.geo.active.header = none ∧ s.haul.line = .parked ∧ s.geo.active.header.isSome
      ∧ { s with spd := State.reset.spd }.spd.restSince = none ∧ s.spd.restSince.isSome
      ∧ (s.geo.datum.getD 0 false = true ∧ s.geo.datum.getD 3 false = true)
      ∧ ¬((s.setDatum 3 false).geo.datum.getD 0 false = true ∧ (s.setDatum 3 false).geo.datum.getD 3 false = true) := by
  decide +kernel

/-- The state off a berth by one mm more than the berth window. -/
def offBerth (s : State) : State := { s with geo := { s.geo with pA := s.geo.pA - 151000 } }

theorem test_meets_UnparkEntersDwellOrHalted :
    refusedBy (unparkChecks (dwell fourStations .ready .ready)) = some (.wrongState, [])
      ∧ refusedBy (unparkChecks { parked fourStations with osb := { State.reset.osb with driveFault := true } })
        = some (.refused, [0x04])
      ∧ refusedBy (unparkChecks (parked fourStations)) = none ∧ (parked fourStations).current = some 3
      ∧ refusedBy (unparkChecks (offBerth (parked fourStations))) = none
      ∧ (offBerth (parked fourStations)).current = none := by decide +kernel

theorem test_meets_ParkAndStopRunEndTheService :
    admissionInv (stepping claiming .pwmPeriod) ∧ refusedBy (parkChecks claiming) = none ∧ claiming.adm.claims ≠ []
      ∧ refusedBy (parkChecks (parked fourStations)) = some (.wrongState, [])
      ∧ (travelling .moving 30000 5894 5894).running = true ∧ (resting .halted 30000).haul.line = .halted
      ∧ claiming.running = false ∧ claiming.haul.line ≠ .halted :=
  ⟨test_admissionInv _, by decide +kernel⟩

theorem test_meets_StartRunAndResumeEnterStarting :
    let s := resting .halted 30000
    refusedBy (startRunChecks ⟨0, 499⟩ loaded) = some (.badParameter, [])
      ∧ refusedBy (startRunChecks ⟨3, 500⟩ loaded) = some (.refused, [0x08])
      ∧ (∀ x ∈ [loaded, s], refusedBy (startRunChecks ⟨0, 12000⟩ x) = none ∧ speedInv x)
      ∧ loaded.haul.line = .dwell ∧ s.haul.line = .halted
      ∧ refusedBy (resumeChecks loaded) = some (.wrongState, [])
      ∧ refusedBy (resumeChecks { s with haul := { s.haul with run := none } }) = some (.refused, [0x0F])
      ∧ s.haul.run = some run1 ∧ refusedBy (resumeChecks s) = none := by
  unfold speedInv channelInv
  decide +kernel

theorem test_meets_EmergencyStopHandsCommanded :
    (parked fourStations).haul.line = .parked ∧ tripped.haul.line = .tripped
      ∧ loaded.haul.line ≠ .parked ∧ loaded.haul.line ≠ .tripped := by decide +kernel

theorem test_meets_HardwiredInputsHandTheirCauses :
    ∀ s ∈ [parked fourStations, tripped, loaded], s.osb.estop = false ∧ s.osb.driveFault = false := by decide +kernel

theorem test_record_discarded : ∀ r, (tripped.setRecord .a none).record .a = some r → r.station ≠ 3 := nofun

/-- R107 and R120: a kept record in ARRIVED is tested as the line enters DWELL; station 3 has a separate exit side. In
inspection mode it waits. -/
theorem test_kept_arrived_record :
    let s := tripped.setRecord .a (some { stop 3 .arrived with suspended := true })
    let inspected := { s with geo := { s.geo with inspection := true } }
    let phase (t : State) : Option (StopPhase × Bool) := (t.record .a).map fun r => (r.phase, r.suspended)
    refusedBy (resetChecks s) = none ∧ (∃ r ∈ s.record .a, r.station = 3 ∧ r.phase = .arrived)
      ∧ sees s (.resetTrip (.fields {})) (fun t => phase t == some (.alighting, false)) = true
      ∧ sees inspected (.resetTrip (.fields {})) (fun t => phase t == some (.arrived, false)) = true := by decide +kernel

theorem test_meets_ResetTripClearsTheLatch :
    tripped.haul.line = .tripped ∧ refusedBy (resetChecks tripped) = none ∧ tripped.current = some 3
      ∧ (∃ r ∈ tripped.record .a, r.station = 3)
      ∧ refusedBy (resetChecks (tripped.setRecord .a none)) = none
      ∧ refusedBy (resetChecks (offBerth tripped)) = none ∧ (offBerth tripped).current = none
      ∧ refusedBy (resetChecks { tripped with osb := { tripped.osb with driveFault := true } })
        = some (.refused, [0x4A])
      ∧ (parked fourStations).osb.estop = false
      ∧ { parked fourStations with osb := { State.reset.osb with estop := true } }.osb.estop = true
      ∧ loaded.haul.line ≠ .tripped ∧ loaded.haul.line ≠ .parked := by decide +kernel

theorem test_meets_SlipAndResetTimersExpireAndStoppedOnesDoNot :
    let s := parked fourStations
    let slipping (l : LineState) : State :=
      let m := travelling l 1800000 0 0
      { m with spd := { m.spd with slipDue := some 5500000 } }
    (∀ l ∈ [LineState.parked, .moving, .tripped], (slipping l).spd.slipDue = some 5500000 ∧ (slipping l).haul.line = l)
      ∧ { s with osb := { s.osb with resetDue := some 9 } }.osb.resetDue = some 9
      ∧ s.osb.resetDue = none ∧ s.spd.rope.standDue = none ∧ s.spd.drive.standDue = none ∧ s.spd.restDue = none
      ∧ s.spd.slipDue = none ∧ State.reset.tsr.minuteDue = none ∧ s.haul.torqueDue = none
      ∧ State.reset.stp.carA.linkDue = none ∧ s.record .a = none
      ∧ { s with adm := { s.adm with pollDue := none } }.adm.pollDue = none ∧ s.adm.windowDue = none
      ∧ claiming.claimById 16 = none := by decide +kernel

theorem test_meets_AdvanceActsOnTheSelectedRecords :
    2 < (3 : Byte).toNat ∧ (2 : Byte).toNat ≤ 2 ∧ (parked fourStations).record .a = none
      ∧ (parked fourStations).record .b = none ∧ exiting.record .b = some (stop 0 .alighting)
      ∧ (exiting.record .a).isSome := by decide +kernel

theorem test_meets_DoorAndAlarmCommandsActOnOneCar :
    let s := dwell fourStations .closing .ready
    let h := resting .halted 30000
    carOf 0 = some .a ∧ carOf 1 = some .b ∧ 1 < (2 : Byte).toNat ∧ 1 ≤ (1 : Byte).toNat ∧ (60 : Byte).toNat ≤ 60
      ∧ 60 < (61 : Byte).toNat ∧ (0 : Byte).toNat < 1
      ∧ s.record .a = some (stop 3 .closing) ∧ s.geo.inspection = false ∧ s.record .b = some (stop 0 .ready)
      ∧ refusedBy (evacuateChecks ⟨0, 1⟩ .a s) = some (.wrongState, [])
      ∧ refusedBy (evacuateChecks ⟨0, 3⟩ .a h) = some (.badParameter, [])
      ∧ refusedBy (evacuateChecks ⟨0, 1⟩ .a h) = none ∧ sideOf 1 = some .left ∧ sideOf 2 = some .right := by
  decide +kernel

theorem test_meets_AddRestrictionTakesTheLowestFreeSlot :
    early.tsr.table.length = 32 ∧ refusedBy (addRestrictionChecks addA early) = none
      ∧ refusedBy (addRestrictionChecks addA State.reset) = some (.wrongState, [])
      ∧ refusedBy (addRestrictionChecks { addA with direction := 3 } early) = some (.badParameter, [])
      ∧ refusedBy (addRestrictionChecks { addA with spanEnd := 1050000 } early) = some (.badParameter, [])
      ∧ refusedBy (addRestrictionChecks addA { early with tsr := { early.tsr with clockSet := false } })
        = some (.noClock, [])
      ∧ refusedBy (addRestrictionChecks addA { early with tsr := { early.tsr with
          table := List.replicate 32 (some ⟨true, 0, 1, 300, .up, none, none, none⟩) } }) = some (.tableFull, []) := by
  decide +kernel

theorem test_meets_RestrictionCommandsActOnOneEntry :
    dueState.tsr.table.length = 32
      ∧ refusedBy (amendRestrictionChecks ⟨5, 3000, 0, 0, 0⟩ dueState) = some (.wrongOrigin, [])
      ∧ refusedBy (amendRestrictionChecks ⟨8, 3000, 0, 0, 0⟩ dueState) = some (.notFound, [])
      ∧ (∀ a ∈ [(⟨7, 3000, 0, 0, 0⟩ : AmendRestrictionArgs), ⟨7, 12000, 2, 1200, 361⟩],
          refusedBy (amendRestrictionChecks a dueState) = none)
      ∧ (dueState.entry 7).isSome ∧ dueState.entry 31 = none ∧ 31 < (32 : Byte).toNat ∧ (5 : Byte).toNat < 6
      ∧ 32 ≤ (254 : Byte).toNat ∧ (254 : Byte) ≠ 255 := by decide +kernel

theorem test_transferFails :
    transferFails { add1 with media := 0 } ∧ ¬transferFails add1 ∧ ¬transferFails add5 := by
  refine ⟨Or.inl rfl, ?_, ?_⟩ <;> simp [transferFails, add1, add5]

theorem test_meets_AddEntitlementPlacesOrReclaims :
    entWf fullBucket.ent.table = true ∧ homeBucket add1.media = 521
      ∧ (entGet fullBucket.ent.table 2084).map (·.media) = some add1.media
      ∧ (∀ k ∈ [2084, 2085, 2086, 2087], (entGet fullBucket.ent.table k).isSome
          ∧ (entGet fullBucket.ent.table k).map (·.media) ≠ some add5.media)
      ∧ fullBucket.tsr.clockSet = true
      ∧ (∃ r ∈ entGet fullBucket.ent.table 2086, r.validUntil = some 1180 ∧ 1180 < fullBucket.tsr.day ∧ r.claim = none)
      ∧ (∃ r ∈ entGet fullBucket.ent.table 2085, r.validUntil = some 1190)
      ∧ { fullBucket with tsr := State.reset.tsr }.tsr.clockSet = false
      ∧ entGet (parked fourStations).ent.table 2084 = none := by
  decide +kernel

/-- AMEND with rides SET 20, with a valid-until day SET, and with a daily cap REMOVE on a MULTI record. -/
def setRides : AmendEntArgs := ⟨0x123456789A, 1, 20, 1, 1300, 15, 1⟩
theorem test_meets_AmendEntitlementChangesTheFieldsNamed :
    entWf fullBucket.ent.table = true ∧ refusedBy (amendEntitlementChecks setRides fullBucket) = none
      ∧ (entFind fullBucket.ent.table setRides.media).isSome
      ∧ refusedBy (amendEntitlementChecks { setRides with actions := 0b10001 } fullBucket) = none
      ∧ refusedBy (amendEntitlementChecks { setRides with actions := 0b1000000000 } fullBucket) = some (.badParameter, [])
      ∧ refusedBy (amendEntitlementChecks { setRides with media := 7 } fullBucket) = some (.notFound, [])
      ∧ refusedBy (amendEntitlementChecks setRides claiming) = some (.inUse, []) := by decide +kernel

theorem test_meets_BlockAndRetireActOnTheRecordFound :
    entWf claiming.ent.table = true ∧ (7 : Media) ≠ 0 ∧ entFind claiming.ent.table 7 = none
      ∧ (∃ r, entFind claiming.ent.table 0x123456789A = some (2084, r) ∧ r.claim.isSome)
      ∧ ∃ r, entFind fullBucket.ent.table 0x123456789A = some (2084, r) ∧ r.claim = none :=
  ⟨by decide +kernel, by decide, by decide +kernel, ⟨_, by rfl, rfl⟩, ⟨_, by rfl, rfl⟩⟩

theorem test_meets_LookUpAndCountReadTheTable :
    (1 : Byte) ≠ 0 ∧ (7 : Media) ≠ 0 ∧ entFind fullBucket.ent.table 7 = none
      ∧ (entFind fullBucket.ent.table 0x123456789A).isSome ∧ (0 : Byte) ≠ 1 ∧ 4095 < (4096 : BitVec 16).toNat
      ∧ (4095 : BitVec 16).toNat ≤ 4095 ∧ entGet fullBucket.ent.table 4095 = none
      ∧ (entGet fullBucket.ent.table 2087).isSome ∧ entWf fullBucket.ent.table = true := by decide +kernel

theorem test_meets_SetGateChangesOneEntry :
    admitting.adm.gates.length = 16
      ∧ (∀ a ∈ [(⟨0, 1, 1⟩ : GateArgs), ⟨17, 1, 1⟩, ⟨1, 4, 0⟩, ⟨1, 0xFF, 1⟩],
          refusedBy (setGateChecks a admitting) = some (.badParameter, []))
      ∧ refusedBy (setGateChecks ⟨3, 1, 0⟩ claiming) = some (.inUse, [])
      ∧ (∀ a ∈ [(⟨16, 3, 1⟩ : GateArgs), ⟨3, 0xFF, 0⟩], refusedBy (setGateChecks a admitting) = none
          ∧ (admitting.gate a.address.toNat).isSome)
      ∧ (admitting.gate 3).map (·.enabled) = some true := by decide +kernel

theorem test_meets_StatusReadsChangeNothing :
    carOf 0 = some .a ∧ carOf 1 = some .b ∧ 1 < (2 : Byte).toNat ∧ (admitting.gate (16 : Byte).toNat).isSome
      ∧ admitting.record .a = some { stop 1 .boarding with boarded := 27 } ∧ 16 < (17 : Byte).toNat
      ∧ admitting.adm.gates.length = 16 := by decide +kernel

/-- A last report whose time since fits into its four bytes for the last time. -/
theorem test_meets_StatusReads_report :
    let s := { parked fourStations with now := 4900000 + 4294967295999 }
    (s.car .a).report = some lockedReport ∧ (s.now - lockedReport.takenAt) / 1000 = 2 ^ 32 - 1 := by decide +kernel

theorem test_meets_LineStatusRecordFollowsItsLayout :
    (travelling .moving 30000 5894 5894).haul.run = some run1 ∧ (parked fourStations).haul.run = none := by
  decide +kernel

theorem test_meets_SenseAndSoftResetReplaceTheAttentionSet :
    (travelling .moving 30000 5894 5894).running = true ∧ tripped.haul.line = .tripped
      ∧ (let s := { loaded with spd := (travelling .halted 30000 0 0).spd }
        s.haul.line = .dwell ∧ s.atRest = false)
      ∧ (parked fourStations).haul.line = .parked ∧ claiming.haul.line = .dwell ∧ claiming.atRest = true := by
  decide +kernel

/-- TRIPPED at rest with an evacuation of car A's left side. -/
def evacuating : State := { tripped with stp := { tripped.stp with carA := { tripped.stp.carA with evacLeft := true } } }

/-- The clauses of COUNTING_EDGE and TAKEN_PHASE_EDGE: a level taken already; 19 µs and 20 µs after the last taken edge;
phase B high; a first edge and a later one; leaving rest with a release, and in HALTED with a side not LOCKED. -/
theorem test_meets_CountingEdgeMovesPositionAndChannel :
    let s := travelling .moving 30000 5894 5894
    let c := s.chan .rope
    let b := dwell fourStations .boarding .ready
    let h := resting .halted 30000
    let o := h.setCar .b { liveCar with report := some { lockedReport with right := .opened } }
    c.levelA = true ∧ c.edgeA = some 4990000 ∧ max s.now 4990019 = 5000000
      ∧ (∃ e ∈ c.edgeA, 4990019 < e + 20) ∧ ¬(∃ e ∈ c.edgeA, 4990020 < e + 20) ∧ ¬(∃ e ∈ c.edgeA, 5000000 < e + 20)
      ∧ c.levelB = false ∧ { c with levelB := true }.levelB = true ∧ (b.chan .rope).capture = .standstill
      ∧ c.capture = .measuring ∧ b.atRest = true ∧ b.haul.line ≠ .parked ∧ b.haul.line ≠ .tripped ∧ b.anyRelease = true
      ∧ b.haul.line ≠ .halted ∧ o.anyRelease = false ∧ o.haul.line = .halted ∧ o.allLocked = false ∧ o.atRest = true
      ∧ ({ o with stp := { o.stp with carA := { liveCar with evacLeft := true } } } : State).anyRelease = true
      ∧ h.anyRelease = false ∧ h.allLocked = true
      ∧ (parked fourStations).atRest = true ∧ (parked fourStations).haul.line = .parked
      ∧ evacuating.haul.line = .tripped ∧ evacuating.atRest = true ∧ evacuating.anyRelease = true
      ∧ evacuating.osb.first = some .driveFault ∧ causeIn evacuating.osb.further .doorMotion = false
      ∧ sees evacuating (.countingEdge .rope true 5000000) (fun t =>
          t.osb.first == some .driveFault && causeIn t.osb.further .doorMotion && !t.stp.carA.evacLeft) = true := by
  decide +kernel

/-- The line PARKED with car A at pA in µm and the ROPE phase A at a level, its last taken edge at 4.99 s. -/
def counting (g : Geometry) (pA : Nat) (level : Bool) : State :=
  let s := parked g
  { s with geo := { s.geo with pA := pA }, spd := { s.spd with rope := { measuring 0 with levelA := level } } }

/-- R9: the edge that reaches a bound, the one that would pass it, and the first one back; pB at its least. -/
theorem test_meets_CountingBoundsHoldThePosition :
    let top := (1800000 + 5000) * 1000
    let moved (s : State) (up : Bool) : Option Nat := match exec (.countingEdge .rope up 5000000) s with
      | .next t => some t.geo.pA
      | .fault _ => none
      | .refused _ => none
    (∀ up, let s := counting twoStations top (!up)
        s.spd.rope.edgeA = some 4990000 ∧ 4990000 + 20 ≤ max s.now 5000000 ∧ s.spd.rope.levelA = !up
          ∧ s.spd.rope.levelB = false ∧ s.haul.line = .parked ∧ s.hasGeometry = true ∧ s.atRest = true
          ∧ paramsWf s.params = true)
      ∧ [top - 12500, top - 12499, top].map (fun p => moved (counting twoStations p false) true) = List.replicate 3 (some top)
      ∧ moved (counting twoStations top true) false = some (top - 12500)
      ∧ [12500, 12499, 0].map (fun p => moved (counting twoStations p true) false) = List.replicate 3 (some 0)
      ∧ moved (counting twoStations 0 false) true = some 12500
      ∧ moved (counting Geometry.empty 4005000000 false) true = some 4005000000
      ∧ (counting twoStations top false).posB = -5000 := by decide +kernel

/-- A DRIVE channel edge that publishes 12,500,000 / period, the ROPE channel at rope. -/
def before (l : LineState) (v rope : Nat) : State :=
  let s := travelling l 600000 v rope
  { s with spd := { s.spd with drive := { measuring rope with levelA := false, lastEdge := s.now - 12500000 / 6250 } } }

/-- A ROPE channel edge that publishes 6,250, the phase at a level, the DRIVE channel at drive, the run downwards. -/
def ropeEdge (l : LineState) (level : Bool) (drive : Nat) : State :=
  let s := travelling l 600000 6000 drive
  { s with spd := { s.spd with rope := { measuring drive with levelA := level, lastEdge := s.now - 12500000 / 6250 } } }

/-- The clauses of the comparison, at their boundary values: v_abs = 11,500; t2 and t1 of v_sup = 6,000 are 7,150 and
6,525; the release at v_perm less 200. -/
theorem test_meets_OverspeedIsComparedAtEachPublication :
    let s := before .moving 6000 0
    (true ≠ s.spd.drive.levelA ∧ (∀ e ∈ s.spd.drive.edgeA, e + 20 ≤ 5000000) ∧ s.spd.drive.levelB = false
        ∧ s.spd.drive.capture ≠ .standstill ∧ s.atRest = false
        ∧ min 13000 (s.par 0x21 * 1000 / (max s.now 5000000 - s.spd.drive.lastEdge)) = 6250)
      ∧ s.osb.vAbs = 11500 ∧ s.osb.t1 = 6525 ∧ s.osb.t2 = 7150 ∧ s.haul.line = .moving
      ∧ (before .moving 6000 11501).spd.rope.speed = 11501 ∧ (before .moving 6000 7151).spd.rope.speed = 7151
      ∧ (before .moving 6000 6526).spd.rope.speed = 6526 ∧ (before .moving 6000 6525).spd.rope.speed = 6525
      ∧ (before .intervening 6450 6250).haul.vPerm = 6250 + s.par 0x75
      ∧ (before .intervening 6450 6251).haul.vPerm < 6251 + s.par 0x75 := by decide +kernel

/-- The comparison in each line state: nothing at t2, OVERSPEED above it, ABSOLUTE OVERSPEED above v_abs, and nothing where
nothing is compared. -/
theorem test_comparison_by_state :
    ([.starting, .intervening, .halted].map fun l => [7150, 7151, 11501].map fun v =>
        sees (before l 6000 v) (.countingEdge .drive true 5000000) fun t =>
          (t.haul.line, t.osb.first) == (if v = 7150 then (l, none)
            else (.tripped, some (if v = 7151 then .overspeed else .absOverspeed))))
      = List.replicate 3 [true, true, true]
      ∧ sees (before .tripped 6000 11501) (.countingEdge .drive true 5000000) (fun t => t.osb.first == none) = true := by
  decide +kernel

/-- R29: a ROPE publication against the run direction above the rollback limit hands ROLLBACK; one with it does not, and
one that finds the condition already present does not hand it again. -/
theorem test_rollback :
    (∀ l ∈ [LineState.starting, .moving, .intervening],
        sees (ropeEdge l false 0) (.countingEdge .rope true 5000000) (fun t =>
          t.haul.line == .tripped && t.osb.first == some .rollback && !t.osb.hold && !t.spd.rollback) = true)
      ∧ (ropeEdge .moving true 0).par 0x26 < 6250
      ∧ sees (ropeEdge .moving true 0) (.countingEdge .rope false 5000000) (fun t =>
          t.haul.line == .moving && !t.spd.rollback) = true
      ∧ sees (let s := ropeEdge .moving false 0; { s with spd := { s.spd with rollback := true } })
          (.countingEdge .rope true 5000000) (fun t => t.haul.line == .moving && t.spd.rollback) = true := by
  decide +kernel

/-- R27: a difference above the slip limit starts the timer, one of the same sign lets it run on, one of the other sign
restarts it, and one within the limit stops it and makes the condition absent. -/
theorem test_slip_timer :
    let e : Instr := .countingEdge .drive true 5000000
    let timed (v : Nat) (positive : Bool) : State :=
      let s := before .moving 6000 v
      { s with spd := { s.spd with slipDue := some 5100000, slipPositive := positive } }
    let due := some (5000000 + ms (State.reset.par 0x25))
    sees (before .moving 6000 0) e (fun t => t.spd.slipDue == due && t.spd.slipPositive) = true
      ∧ sees (timed 0 true) e (fun t => t.spd.slipDue == some 5100000 && t.spd.slipPositive) = true
      ∧ sees (timed 0 false) e (fun t => t.spd.slipDue == due && t.spd.slipPositive) = true
      ∧ sees (timed 6250 true) e (fun t => t.spd.slipDue == none) = true
      ∧ sees (let s := before .moving 6000 6250; { s with spd := { s.spd with slip := .slip } }) e (fun t =>
          t.spd.slip == .absent) = true := by decide +kernel

theorem test_meets_SpeedTimersExpire :
    let m := travelling .moving 1800000 0 0
    let r := { m with spd := { (parked twoStations).spd with restSince := none, restDue := some 5000000 } }
    (m.chan .rope).standDue = some 5490000 ∧ (r.chan .drive).capture = .standstill ∧ r.spd.restDue = some 5000000
      ∧ r.haul.line = .moving ∧ r.current = some 3 ∧ (offBerth r).current = none
      ∧ (resting .halted 30000).current = none
      ∧ (∀ l ∈ [LineState.parked, .dwell, .starting, .halted, .tripped],
          { r with haul := { r.haul with line := l } }.spd.restDue = some 5000000)
      ∧ { r with haul := { r.haul with line := .halted } }.current = some 3 := by decide +kernel

/-- R120: an ARRIVED record in DWELL is tested as the line comes to rest. R92: the publication of 0 at a standstill is
compared, and at 5,694 the release of 5,894 less 200 is reached. -/
theorem test_rest_and_standstill :
    let d := dwell fourStations .arrived .ready
    let s := { d with spd := { d.spd with restSince := none, restDue := some 5000000 } }
    s.haul.line = .dwell ∧ s.record .a = some (stop 3 .arrived)
      ∧ sees s .restConfirm (fun t => (t.record .a).map (·.phase) == some .alighting) = true
      ∧ ([5694, 5695].map fun v =>
          let m := travelling .intervening 600000 5894 v
          sees { m with spd := { m.spd with drive := measuring 6000 } } (.standstillTimeout .drive) fun t =>
            t.spd.vMeas == v && t.haul.line == (if v = 5694 then .moving else .intervening)) = [true, true] := by
  decide +kernel

/-- The clauses of DATUM_EDGE at the boundaries of section 1.5.2: a distance of 1,300 is within reach, 1,301 is not. -/
theorem test_meets_DatumEdgesCorrectOrFault :
    let s := approaching 798700
    let f := approaching 798699
    s.geo.datum.getD 1 false = false ∧ (parked twoStations).geo.datum.getD 3 false = true
      ∧ (parked twoStations).inUse 1 = false ∧ s.hasGeometry = true ∧ s.inUse 1 = true ∧ s.geo.referenced = true
      ∧ (s.posA - 800000).natAbs = 1300 ∧ (s.posB - 800000).natAbs = 801300
      ∧ ((800000 - s.posA) - (s.par 0x12 : Int)).natAbs = 300 ∧ s.par 0x13 = 300
      ∧ (f.posA - 800000).natAbs = 1301 ∧ f.running = true
      ∧ (approaching 798680).posB = 1600020 + 1300 ∧ loaded.running = false
      ∧ ({ s with geo := { s.geo with referenced := false } } : State).geo.referenced = false := by decide +kernel

/-- MONITOR_SAMPLE: a fault at 639 and at 4,081; W1, FROST, SLACK and OVERTENSION raised by a sample; W1 cleared by one. -/
theorem test_meets_MonitorSampleEvaluatesItsConditions :
    let s := travelling .moving 1000000 5000 5000
    let frosty := s.setCond .frost ⟨false, 9, 0⟩
    let windy := s.setCond .w1 ⟨true, 0, 599⟩
    (639 ≤ 639 ∧ ¬(640 ≤ 639 ∨ 4081 ≤ 640) ∧ ¬(4080 ≤ 639 ∨ 4081 ≤ 4080) ∧ 4081 ≤ 4081)
      ∧ s.tsr.table.length = 32 ∧ s.hasGeometry = true ∧ s.running = true
      ∧ sees s (.monitorSample .tension 639) (fun t => t.mon.overtension.raised && !t.mon.slack.raised) = true
      ∧ sees s (.monitorSample .tension 640) (fun t => !t.mon.tension.fault) = true
      ∧ sees s (.monitorSample .wind 4081) (fun t => t.mon.w1.raised && t.mon.w2.raised) = true
      ∧ sees frosty (.monitorSample .rail 800) (fun t => t.mon.frost.raised && (t.entry 5).isSome) = true
      ∧ sees windy (.monitorSample .wind 800) (fun t => !t.mon.w1.raised) = true
      ∧ sees (s.setCond .slack ⟨false, 1, 0⟩) (.monitorSample .tension 800) (fun t => t.mon.slack.raised
          && t.haul.line == .tripped) = true := by decide +kernel

/-- R59: a raise of SLACK in TRIPPED and in PARKED. R56: a raise of W1 without a geometry. -/
theorem test_slack_and_wind_elsewhere :
    sees (tripped.setCond .slack ⟨false, 1, 0⟩) (.monitorSample .tension 800) (fun t =>
        t.haul.line == .tripped && t.osb.first == some .driveFault && causeIn t.osb.further .slackRope && !t.osb.hold) = true
      ∧ sees ((parked fourStations).setCond .slack ⟨false, 1, 0⟩) (.monitorSample .tension 800) (fun t =>
        t.haul.line == .parked && t.osb == (parked fourStations).osb && t.mon.slack.raised) = true
      ∧ sees (State.reset.setCond .w1 ⟨false, 2, 0⟩) (.monitorSample .wind 4000) (fun t =>
        t.mon.w1.raised && t.tsr.table == State.reset.tsr.table) = true := by decide +kernel

theorem test_meets_HaulSampleComputesTheSpeeds :
    let s := travelling .moving 30000 5894 5894
    let u := { approaching 799850 with geo := { (approaching 799850).geo with referenced := false } }
    (parked fourStations).running = false ∧ u.arrivedUnreferenced = true ∧ s.running = true ∧ s.haul.run = some run1
      ∧ s.arrivedUnreferenced = false ∧ s.haul.line = .moving
      ∧ (approaching 800151).remaining { run1 with target := 1, up := true } < -((approaching 800151).window : Int)
      ∧ ¬(approaching 800150).remaining { run1 with target := 1, up := true } < -((approaching 800150).window : Int) := by
  decide +kernel

/-- R92 at a haul sample: with v_sup at 5,894, t1 is 5,894 + 368 + 150 and t2 5,894 + 736 + 400. -/
theorem test_comparison_at_haul_sample :
    ([6412, 6413, 7030, 7031, 11501].map fun v =>
        sees (travelling .moving 30000 5894 v) .haulSample fun t => (t.haul.line, t.osb.first) ==
          (if v = 6412 then (.moving, none) else if v ≤ 7030 then (.intervening, none)
            else (.tripped, some (if v = 7031 then .overspeed else .absOverspeed)))) = List.replicate 5 true := by
  decide +kernel

theorem test_meets_PermittedSpeedIsTheLeastOfItsTerms :
    let s := travelling .moving 30000 5894 5894
    (s.hasGeometry = true ∧ geometryInv s.geo.active ∧ s.running = true ∧ s.haul.run = some run1
        ∧ s.arrivedUnreferenced = false)
      ∧ loaded.hasGeometry = true ∧ geometryInv loaded.geo.active
      ∧ refusedBy (startRunChecks ⟨0, 10000⟩ loaded) = none ∧ speedInv loaded := by
  unfold geometryInv speedInv channelInv
  decide +kernel

/-- Section 5.7.1: 30,000 mm before the berth the stop envelope of 5,894 is a term, beside the run speed and the segment
limit of 10,000. -/
theorem test_speed_terms :
    let s := travelling .moving 30000 5894 5894
    SpeedTerm s run1 5894 ∧ SpeedTerm s run1 10000 ∧ s.permitted = 5894 := by
  intro s
  have e : max (s.par 0x65) (isqrt (2 * run1.aEff * (s.remaining run1 - s.par 0x66).toNat)) = 5894 := by decide +kernel
  exact ⟨e ▸ .stopBefore (by decide +kernel), .runSpeed, by decide +kernel⟩

/-- R84: the figures of section 5.7.1, the largest argument, and a square less 1. -/
theorem test_isqrt_bounds :
    (isqrt 34742000, isqrt 9900000000, isqrt (99498 * 99498), isqrt (99498 * 99498 - 1)) = (5894, 99498, 99498, 99497) := by
  decide +kernel

theorem test_meets_IntegerSquareRootRoundsDown :
    let s := stepping restricted .haulSample
    paramsWf s.params = true ∧ curvesInv s ∧ (∃ t, step s = .next t) ∧ positionInv s ∧ s.hasGeometry = true
      ∧ (9900000000 : Nat) < 2 ^ 40 ∧ (0 : Int) ≤ s.len
      ∧ s.inUse 3 = true := by
  intro s
  have segments : ∀ o ∈ s.geo.active.segments, ∀ y ∈ o, y.limit ≤ 12000 := by decide +kernel
  have table : ∀ o ∈ s.tsr.table, ∀ x ∈ o, x.limit ≤ 12000 := by decide +kernel
  have run : ∀ r ∈ s.haul.run, r.aEff ≤ 1200 := by decide +kernel
  exact ⟨by decide +kernel, ⟨fun y h => segments _ h y rfl, fun x h => table _ h x rfl, run⟩, ⟨_, rfl⟩,
    test_meets_PositionAndSpansStayInBounds.2.1, by decide +kernel, by decide, by decide +kernel, by decide +kernel⟩

/-- STARTING with the stop records READY and the torque-ready timer running. -/
def starting (o : Origin) : State :=
  { loaded with haul := { loaded.haul with
      line := .starting, run := some { run1 with origin := o }, driveEnable := true, torqueDue := some 8000000 } }

theorem test_meets_StartsEndInMovingOrFail :
    { loaded with haul := { loaded.haul with torqueReady := true } }.haul.torqueReady = true
      ∧ loaded.haul.torqueReady = false ∧ loaded.haul.line ≠ .starting ∧ (starting .dwell).haul.torqueReady = false
      ∧ (starting .dwell).haul.line = .starting ∧ (starting .dwell).haul.torqueDue = some 8000000
      ∧ (starting .dwell).haul.run = some run1 ∧ run1.origin = .dwell
      ∧ (starting .halted).haul.run = some { run1 with origin := .halted } := by decide +kernel

theorem test_meets_CarLinkTimersActOnOneCar :
    loaded.stp.carA.linkDue = some 5150000 ∧ loaded.running = false
      ∧ (travelling .moving 30000 5894 5894).stp.carB.linkDue = some 5150000
      ∧ (travelling .moving 30000 5894 5894).running = true := by decide +kernel

/-- UPLINK: a frame too short; parity bad; valid with LEFT open in MOVING and in STARTING; valid and LOCKED for a CLOSING
record whose close is two frames old. -/
def closingA : State :=
  (dwell fourStations .closing .ready).setRecord .a (some { stop 3 .closing with
    close := some ⟨false, 2, false⟩, closeDue := some 20000000 })
def openFrame : List Byte := [0x01, 0x02, 0x30, 0x04, 0x01, 0x2C, 0x29, 0xC5]
def shutFrame : List Byte := [0x01, 0x02, 0x33, 0x04, 0x01, 0x2C, 0xB2, 0x19]

theorem test_meets_UplinkIsJudgedAndActedOn :
    ([0x01] : List Byte).length ≠ 8 ∧ crcGood openFrame = true ∧ crcGood shutFrame = true
      ∧ liveCar.kept.contains 2 = true
      ∧ doorOf ((0x30 : Byte).toNat % 16) = .opened ∧ doorOf ((0x33 : Byte).toNat / 16) = .locked
      ∧ (starting .dwell).haul.run = some run1 ∧ (starting .dwell).record .a = some (stop 3 .ready)
      ∧ (closingA.record .a).map (·.close) = some (some ⟨false, 2, false⟩)
      ∧ closingA.stp.carA.kept.findIdx (fun z => z == (2 : Byte)) < 2
      ∧ (closingA.record .a).map (fun q => (q.held, q.reopening)) = some (0, false)
      ∧ sees closingA (.uplink .a true shutFrame) (fun t => t.haul.loadA == some 4) = true := by decide +kernel

/-- A stop record of car A at station 3, alone in DWELL or TRIPPED, and what an uplink makes of its phase and its close. -/
def withRecord (l : LineState) (q : StopRecord) : State :=
  let s := dwell fourStations .ready .ready
  { s.setRecord .a (some q) with haul := { s.haul with line := l } }
def afterUplink (l : LineState) (q : StopRecord) (frame : List Byte) (p : StopPhase) (y : Option Close) : Bool :=
  sees (withRecord l q) (.uplink .a true frame) fun t => (t.record .a).map (fun z => (z.phase, z.close)) == some (p, y)

/-- The clauses of UPLINK on a stop record: ARRIVED; ALIGHTING with an exit close confirmed, not echoed, or not LOCKED;
BOARDING and a record without a close; CLOSING confirmed and withdrawn, confirmed with persons held, newly confirmed with
persons held or reopening, not echoed; READY kept and returned to CLOSING. -/
theorem test_meets_uplink_records :
    ∀ l ∈ [LineState.dwell, .tripped],
      (afterUplink .dwell (stop 3 .arrived) shutFrame .alighting none
        && afterUplink l { stop 3 .alighting with close := some ⟨true, 1, false⟩ } shutFrame .boarding none
        && afterUplink l { stop 3 .alighting with close := some ⟨true, 0, false⟩ } shutFrame .alighting (some ⟨true, 0, false⟩)
        && afterUplink l { stop 3 .alighting with close := some ⟨true, 1, false⟩ } openFrame .alighting (some ⟨true, 1, false⟩)
        && afterUplink l (stop 3 .alighting) shutFrame .alighting none
        && afterUplink l (stop 3 .boarding) openFrame .boarding none
        && afterUplink l { stop 3 .closing with close := some ⟨false, 2, true⟩ } openFrame .closing (some ⟨false, 2, false⟩)
        && afterUplink l { stop 3 .closing with held := 3, close := some ⟨false, 2, true⟩ } shutFrame .closing
            (some ⟨false, 2, true⟩)
        && afterUplink l { stop 3 .closing with held := 3, close := some ⟨false, 1, false⟩ } shutFrame .closing
            (some ⟨false, 1, true⟩)
        && afterUplink l { stop 3 .closing with close := some ⟨false, 0, false⟩ } shutFrame .closing (some ⟨false, 0, false⟩)
        && afterUplink l { stop 3 .closing with close := some ⟨false, 1, false⟩ } openFrame .closing (some ⟨false, 1, false⟩)
        && afterUplink l (stop 3 .ready) shutFrame .ready none
        && afterUplink l (stop 3 .ready) openFrame .closing (some ⟨false, 0, false⟩)) = true := by decide +kernel

/-- At a terminal a confirmed exit close returns the admitted-run count to 0; it weighs the car at 4 persons. -/
theorem test_exit_close_at_terminal :
    (fourStations.station 3).bind (·.separateExit) = some .left
      ∧ sees (let s := exiting; { s with stp := { s.stp with carA := { s.stp.carA with admitted := 9 } } })
          (.uplink .a true shutFrame) (fun t => t.stp.carA.admitted == 0
            && (t.record .a).map (fun q => (q.phase, q.wOpen, q.quota)) == some (.boarding, some 4, 196)) = true := by
  decide +kernel

theorem test_meets_StopDeadlinesExpire :
    closingA.record .a = some { stop 3 .closing with close := some ⟨false, 2, false⟩, closeDue := some 20000000 }
      ∧ (∀ p ∈ [StopPhase.alighting, .boarding, .closing],
          ((dwell fourStations p .ready).setRecord .a (some { stop 3 p with phaseDue := some 45000000 })).record .a
            = some { stop 3 p with phaseDue := some 45000000 })
      ∧ (stop 3 .ready).closeDue = none ∧ (stop 3 .ready).phaseDue = none := by decide +kernel

/-- The enabled gates of section 9.10.4. -/
theorem test_normal_gates (n : Nat) (b : Bool) (j : Nat) (h : normalGate (arbiter n b) j) : j = 1 ∨ j = 2 ∨ j = 5 := by
  obtain ⟨g, hg, he⟩ := h
  have small : ∀ k < 17, (((arbiter n b).gate k).map (·.enabled)) = some true → k = 1 ∨ k = 2 ∨ k = 5 := by
    change ∀ k < 17, (((arbiter 0 false).gate k).map (·.enabled)) = some true → k = 1 ∨ k = 2 ∨ k = 5
    decide +kernel
  by_cases hj : j < 17
  · exact small j hj (by rw [hg]; exact congrArg some he)
  · have none_ : (arbiter n b).gate j = none := by
      unfold State.gate
      rw [if_neg (by omega)]
      exact List.getElem?_eq_none (by change 16 ≤ j - 1; omega)
    rw [none_] at hg
    cases hg

/-- Slots 1 and 4 of section 9.10.4: gate 5 in the urgent class from pointer 0, gate 1 in the normal class from pointer 5;
and an empty gate map. -/
theorem test_nextInTurn :
    nextInTurn (urgentGate (arbiter 0 false)) 0 5 ∧ nextInTurn (normalGate (arbiter 3 false)) 5 1
      ∧ ∀ j, ¬normalGate (parked fourStations) j := by
  have urgent : ∀ j, urgentGate (arbiter 0 false) j → j = 5 := by
    intro j h
    obtain ⟨g, hg, he, ho⟩ := h
    rcases test_normal_gates 0 false j ⟨g, hg, he⟩ with rfl | rfl | rfl
    · cases hg; revert ho; decide +kernel
    · cases hg; revert ho; decide +kernel
    · rfl
  refine ⟨⟨⟨gateAt 0, by rfl, rfl, by decide +kernel⟩, Or.inl ⟨by decide, fun j h _ => (urgent j h).ge⟩⟩,
    ⟨⟨gateAt 3, by rfl, rfl⟩, Or.inr ⟨?_, ?_⟩⟩, ?_⟩
  · intro j h
    rcases test_normal_gates 3 false j h with rfl | rfl | rfl <;> decide
  · intro j h
    rcases test_normal_gates 3 false j h with rfl | rfl | rfl <;> decide
  · rintro j ⟨g, hg, he⟩
    have : g ∈ (parked fourStations).adm.gates := by
      unfold State.gate at hg
      split at hg
      · cases hg
      · exact List.mem_of_getElem? hg
    have all : ∀ x ∈ (parked fourStations).adm.gates, x.enabled = false := by decide +kernel
    rw [all g this] at he
    cases he

/-- A slot waits while gate 3's response is awaited; its window ends, or its response arrives, in this state. -/
def slotWaiting : State := { admitting with adm := { admitting.adm with pollDue := none } }

theorem test_waiting_slot_goes_on :
    slotWaiting.adm.polled.isSome ∧ slotWaiting.adm.windowDue.isSome ∧ slotWaiting.adm.pollDue = none
      ∧ ∀ i ∈ [Instr.gateResponse true [0x03, 0x00, 0x48, 0x5C], .responseWindowExpiry],
        sees { slotWaiting with adm := { slotWaiting.adm with pollDue := some 0 } } i (fun _ => true) = true := by
  decide +kernel

theorem test_meets_PollSlotFollowsTheArbiter :
    admitting.adm.pollDue = some 10000 ∧ admitting.adm.gates.length = 16 ∧ admitting.adm.polled.isSome
      ∧ (arbiter 3 false).adm.polled = none ∧ (arbiter 3 false).adm.pollDue = some 10000
      ∧ (arbiter 0 true).adm.broadcastPending = true ∧ (arbiter 3 false).adm.broadcastPending = false
      ∧ nextGate (arbiter 3 false).normalClass 5 = some 1 ∧ nextGate (arbiter 0 false).urgentClass 0 = some 5
      ∧ pollCountAfter (arbiter 3 false) = 3 ∧ pollCountAfter (arbiter 0 false) ≠ 3 := by decide +kernel

/-- R160 and section 11.5: station 1 OPEN, stations 0, 2 and 3 CLOSED, is 01 01 00 01 in bits. -/
theorem test_meets_BroadcastCarriesTheBoardingStates :
    let s := arbiter 0 true
    s.adm.pollDue = some 10000 ∧ s.adm.polled = none ∧ s.adm.broadcastPending = true ∧ boardingInv s
      ∧ sees s .pollSlot (fun t => t.adm.lastFrame == withCrc [0, 0x51] && t.adm.gates == s.adm.gates) = true := by
  unfold boardingInv
  decide +kernel

theorem test_meets_GateResponseOpensClaims :
    let f : List Byte := withCrc ([0x03, 0x03] ++ [0x12, 0x34, 0x56, 0x78, 0x9A])
    let g := gateAt 1
    admitting.adm.polled = some 3 ∧ admitting.gate 3 = some g ∧ admitting.adm.pollDue.isSome
      ∧ entWf admitting.ent.table = true ∧ crcGood [0x03, 0x03, 0x00, 0x00] = false
      ∧ admitting.adm.windowDue = some 5004000
      ∧ f = [0x03, 0x03, 0x12, 0x34, 0x56, 0x78, 0x9A, 0x0E, 0x00] ∧ (0x03 : Byte).toNat / 2 % 8 = 1
      ∧ g.toggle ≠ some true ∧ (gateAt 1).toggle = none ∧ admitting.claimOf 3 = none
      ∧ entFind admitting.ent.table 0x123456789A = some (2084, multi)
      ∧ refusalOf (presentChecks admitting g.station (some multi)) = none
      ∧ g.station = some 1 ∧ admitting.recordAt 1 = some (.a, { stop 1 .boarding with boarded := 27 })
      ∧ refusalOf (presentChecks admitting g.station none) = some .unknown
      ∧ refusalOf (presentChecks claiming g.station (some multi)) = some .carFull
      ∧ admitting.adm.claims.length ≤ 16 ∧ admitting.adm.gates.length = 16 := by decide +kernel

/-- A PRESENT with toggle 0 at gate 3, whose last toggle is 1 and whose claim 17 is open: the claim lapses first, and the
presentation, which then finds the places free, opens claim 18. -/
theorem test_own_claim_lapses_first :
    let s := stepping claiming .pwmPeriod
    admissionInv s ∧ s.adm.polled = some 3 ∧ s.adm.pollDue.isSome ∧ (s.gate 3).map (·.toggle) = some (some true)
      ∧ (0x02 : Byte).toNat / 2 % 8 = 1 ∧ (0x02 : Byte).getLsbD 0 = false ∧ (s.claimOf 3).map (·.id) = some 17
      ∧ sees s (.claimLapse 17) (fun _ => true) = true
      ∧ sees s (.gateResponse true (withCrc [0x03, 0x02, 0x12, 0x34, 0x56, 0x78, 0x9A])) (fun t =>
          t.adm.claims.map (fun x => (x.id, x.persons)) == [(18, 3)]
            && ((t.gate 3).bind (·.memory)).map (·.id) == some 17) = true :=
  ⟨test_admissionInv _, by decide +kernel⟩

/-- A record in CLOSING, both closes confirmed, that waits for the three persons of claim 17: the lapse makes it READY, and
fixes the load figure at the 27 persons of its record. -/
def closingHeld : StopRecord :=
  { stop 1 .closing with boarded := 27, held := 3, close := some ⟨false, 2, true⟩ }
theorem test_end_of_last_claim :
    (claiming.setRecord .a (some closingHeld)).record .a = some closingHeld
      ∧ (releasedRecord closingHeld 3).phase = .ready
      ∧ sees (claiming.setRecord .a (some closingHeld)) (.claimLapse 17) (fun t =>
          (t.record .a).map (·.phase) == some .ready && t.haul.loadA == some 27) = true := by decide +kernel

/-- A late passage in CLOSING counts; one whose memory holds no record counts nowhere. -/
theorem test_late_passage_counts :
    let pass : Instr := .gateResponse true [0x03, 0x04, 0x11, 0x02, 0xD3, 0xDC]
    let counts (t : State) : Option (Nat × Nat) := (t.record .a).map fun q => (q.boarded, q.late)
    let nowhere := { lapsed with adm := { lapsed.adm with
      gates := lapsed.adm.gates.set 2 { gateAt 1 with
        toggle := some true, memory := some ⟨17, 0x123456789A, 3, 1, none⟩ } } }
    sees (lapsed.setRecord .a (some { stop 1 .closing with boarded := 27 })) pass (fun t => counts t == some (29, 2)) = true
      ∧ sees nowhere pass (fun t => counts t == some (27, 0)) = true := by decide +kernel

theorem test_meets_ClaimsEndByPassageAbandonmentOrLapse :
    let q := { stop 1 .boarding with boarded := 27, held := 3 }
    { claiming with adm := { claiming.adm with polled := none } }.adm.polled = none
      ∧ (claiming.gate 3).isSome ∧ 3 ≤ 16 ∧ claiming.record .a = some q ∧ q.phase = .boarding
      ∧ entWf claiming.ent.table = true
      ∧ (0x04 : Byte).toNat / 2 % 8 = 2 ∧ (0x06 : Byte).toNat / 2 % 8 = 3 ∧ claiming.adm.polled = some 3
      ∧ claiming.adm.pollDue.isSome ∧ (claiming.gate 3).map (·.toggle) = some (some true)
      ∧ (0x04 : Byte).getLsbD 0 = false ∧ (0x06 : Byte).getLsbD 0 = false
      ∧ claiming.claimOf 3 = some ⟨17, 3, .a, 2084, 0x123456789A, 3, 13000000⟩
      ∧ entGet claiming.ent.table 2084 = some { multi with claim := some ⟨3, 17⟩ }
      ∧ claiming.claimById 17 = some ⟨17, 3, .a, 2084, 0x123456789A, 3, 13000000⟩
      ∧ (∀ x ∈ claiming.claimOf 3, x.id ≠ 16) ∧ lapsed.claimOf 3 = none ∧ (lapsed.gate 3).bind (·.memory) = some ⟨17, 0x123456789A, 3, 1, some .a⟩
      ∧ entFind lapsed.ent.table 0x123456789A = some (2084, multi) ∧ multi.claim = none
      ∧ (admitting.gate 3).map (·.memory) = some none := by decide +kernel

end Sys2Proof.Tests
end

-- ==== The frame of a command ====
section
/-! What a command leaves as it is: the parts outside its row of partsOf, and what the shared operations of the speed
channels leave of a publication. -/

namespace Sys2Proof.Machine

/-- A command other than power-on reset leaves every part of the state that its row of partsOf does not name. -/
theorem exec_keptBut {c : Instr} {s t : State} (h : exec c s = .next t) (hc : ∀ x, c ≠ .powerOnReset x) :
    keptBut (partsOf c) s t := by
  cases c with
  | setClock p => exact (execSetClock_touches p s t h).1
  | getClock p => exact (execGetClock_touches p s t h).1
  | setParameter p => exact (execSetParameter_touches p s t h).1
  | getParameter p => exact (execGetParameter_touches p s t h).1
  | writeStagedHeader p => exact (execWriteStagedHeader_touches p s t h).1
  | writeStagedStation p => exact (execWriteStagedStation_touches p s t h).1
  | writeStagedSegment p => exact (execWriteStagedSegment_touches p s t h).1
  | readGeometry p => exact (execReadGeometry_touches p s t h).1
  | commitGeometry p => exact (execCommitGeometry_touches p s t h).1
  | enterInspection p => exact (execEnterInspection_touches p s t h).1
  | leaveInspection p => exact (execLeaveInspection_touches p s t h).1
  | home p => exact (execHome_touches p s t h).1
  | unpark p => exact (execUnpark_touches p s t h).1
  | park p => exact (execPark_touches p s t h).1
  | startRun p => exact (execStartRun_touches p s t h).1
  | stopRun p => exact (execStopRun_touches p s t h).1
  | resume p => exact (execResume_touches p s t h).1
  | emergencyStop p => exact (execEmergencyStop_touches p s t h).1
  | resetTrip p => exact (execResetTrip_touches p s t h).1
  | advance p => exact (execAdvance_touches p s t h).1
  | reopenDoors p => exact (execReopenDoors_touches p s t h).1
  | ackAlarm p => exact (execAckAlarm_touches p s t h).1
  | evacuate p => exact (execEvacuate_touches p s t h).1
  | endEvacuation p => exact (execEndEvacuation_touches p s t h).1
  | readStopRecord p => exact (execReadStopRecord_touches p s t h).1
  | addRestriction p => exact (execAddRestriction_touches p s t h).1
  | amendRestriction p => exact (execAmendRestriction_touches p s t h).1
  | retireRestriction p => exact (execRetireRestriction_touches p s t h).1
  | readRestriction p => exact (execReadRestriction_touches p s t h).1
  | addEntitlement p => exact (execAddEntitlement_touches p s t h).1
  | amendEntitlement p => exact (execAmendEntitlement_touches p s t h).1
  | blockEntitlement p => exact (execBlockEntitlement_touches p s t h).1
  | unblockEntitlement p => exact (execUnblockEntitlement_touches p s t h).1
  | retireEntitlement p => exact (execRetireEntitlement_touches p s t h).1
  | lookUpEntitlement p => exact (execLookUpEntitlement_touches p s t h).1
  | count p => exact (execCount_touches p s t h).1
  | setGate p => exact (execSetGate_touches p s t h).1
  | readGateStatus p => exact (execReadGateStatus_touches p s t h).1
  | readLineStatus p => exact (execReadLineStatus_touches p s t h).1
  | readMonitor p => exact (execReadMonitor_touches p s t h).1
  | sense p => exact execSense_kept p s t h
  | softReset p => exact execSoftReset_kept p s t h
  | frameError code => exact (execFrameError_touches code s t h).1
  | invalid code => exact (execInvalid_touches code s t h).1
  | busy code => exact (execBusy_touches code s t h).1
  | countingEdge ch level stamp => exact (execCountingEdge_touches ch level stamp s t h).1
  | standstillTimeout ch => exact (execStandstillTimeout_touches ch s t h).1
  | restConfirm => exact (execRestConfirm_touches s t h).1
  | slipTimerExpiry => exact (execSlipTimerExpiry_touches s t h).1
  | datumEdge station => exact (execDatumEdge_touches station s t h).1
  | monitorSample ch reading => exact (execMonitorSample_touches ch reading s t h).1
  | minuteBoundary => exact (execMinuteBoundary_touches s t h).1
  | haulSample => exact (execHaulSample_touches s t h).1
  | pwmPeriod => exact (execPwmPeriod_touches s t h).1
  | torqueReady => exact (execTorqueReady_touches s t h).1
  | torqueReadyTimeout => exact (execTorqueReadyTimeout_touches s t h).1
  | emergencyStopInput level => exact (execEmergencyStopInput_touches level s t h).1
  | driveFaultInput level => exact (execDriveFaultInput_touches level s t h).1
  | tripResetTime => exact (execTripResetTime_touches s t h).1
  | downlink car => exact (execDownlink_touches car s t h).1
  | uplink car charsOk frame => exact (execUplink_touches car charsOk frame s t h).1
  | carLinkTimeout car => exact (execCarLinkTimeout_touches car s t h).1
  | doorFault car => exact (execDoorFault_touches car s t h).1
  | alightTimeExpiry car => exact (execAlightTimeExpiry_touches car s t h).1
  | boardTimeExpiry car => exact (execBoardTimeExpiry_touches car s t h).1
  | reopenTimeExpiry car => exact (execReopenTimeExpiry_touches car s t h).1
  | pollSlot => exact (execPollSlot_touches s t h).1
  | gateResponse charsOk frame => exact (execGateResponse_touches charsOk frame s t h).1
  | responseWindowExpiry => exact (execResponseWindowExpiry_touches s t h).1
  | claimLapse id => exact (execClaimLapse_touches id s t h).1
  | powerOnReset x => exact absurd rfl (hc x)
  | takenPhaseEdge ch phase level stamp => exact (execTakenPhaseEdge_touches ch phase level stamp s t h).1
  | datumLevelInactive station => exact (execDatumLevelInactive_touches station s t h).1
  | torqueReadyInactive => exact (execTorqueReadyInactive_touches s t h).1

end Sys2Proof.Machine
end

-- ==== The speed channels ====
section
/-! The speed channels: what a publication, a counting edge and the two timers leave of them, and the invariant of R20
to R26. -/

namespace Sys2Proof.Machine

/-! ### A publication and a counting edge, field by field -/

/-- The parts that the speed channels, v_meas and the rest flag make up. -/
abbrev channelParts : List Part := [.rope, .drive, .speed, .rest]

theorem State.slipTest_vMeas (s : State) : s.slipTest.spd.vMeas = s.spd.vMeas :=
  (s.slipTest_touches.1 .speed (by decide)).symm

/-- A publication takes the larger channel speed as v_meas (R25). -/
@[simp] theorem State.publish_vMeas (s : State) (ch : Channel) :
    (s.publish ch).spd.vMeas = max s.spd.rope.speed s.spd.drive.speed := by
  have hv := State.slipTest_vMeas { s with spd := { s.spd with vMeas := max s.spd.rope.speed s.spd.drive.speed } }
  cases ch with
  | rope => exact ((State.compareRollback_touches _).1 .speed (by decide)).symm.trans hv
  | drive => exact ((State.compare_touches _).1 .speed (by decide)).symm.trans hv

@[simp] theorem State.publish_rope (s : State) (ch : Channel) : (s.publish ch).spd.rope = s.spd.rope :=
  ((s.publish_touches ch).1 .rope (by decide)).symm

@[simp] theorem State.publish_drive (s : State) (ch : Channel) : (s.publish ch).spd.drive = s.spd.drive :=
  ((s.publish_touches ch).1 .drive (by decide)).symm

@[simp] theorem State.publish_restSince (s : State) (ch : Channel) :
    (s.publish ch).spd.restSince = s.spd.restSince :=
  ((s.publish_touches ch).1 .rest (by decide)).1.symm

@[simp] theorem State.publish_restDue (s : State) (ch : Channel) : (s.publish ch).spd.restDue = s.spd.restDue :=
  ((s.publish_touches ch).1 .rest (by decide)).2.symm

@[simp] theorem State.publish_now (s : State) (ch : Channel) : (s.publish ch).now = s.now :=
  ((s.publish_touches ch).1 .time (by decide)).symm

/-- The state at a counting edge ahead of its publication: the position, the channel, the rest flag, and what leaving
rest does (R8, R20, R26). -/
def State.edgeTaken (s : State) (ch : Channel) (forward : Bool) : State :=
  let s1 := if ch = .rope then s.countRope forward else s
  let s2 := s1.setChan ch ((s1.chan ch).onEdge forward s.now (s.par (pulseParam ch)) (s.par 0x22))
  let s3 := { s2 with spd := { s2.spd with restDue := none, restSince := none } }
  if s.atRest then s3.leaveRest s else s3

/-- A counting edge publishes a speed unless it is the first one after STANDSTILL (R21, R22). -/
theorem State.takeCountingEdge_eq (s : State) (ch : Channel) (forward : Bool) :
    s.takeCountingEdge ch forward
      = (if (s.chan ch).capture = .standstill then s.edgeTaken ch forward
        else (s.edgeTaken ch forward).publish ch).deriveBoarding := by
  cases ch <;> rfl

/-- What leaving rest keeps: the channels, v_meas and the rest flag. -/
theorem State.leaveRest_channels (s b : State) (p : Part) (hp : p ∈ channelParts) : samePart p s (s.leaveRest b) :=
  (s.leaveRest_touches b).1 p (by revert hp; cases p <;> decide)

/-- Boarding states are derived without a change of the channels. -/
theorem State.deriveBoarding_spd (s : State) : s.deriveBoarding.spd = s.spd := by
  unfold State.deriveBoarding
  dsimp only
  split <;> rfl

/-- The speed channels after a counting edge ahead of its publication: the edge acts on its own channel, v_meas stands,
and the line is not at rest (R20, R26). -/
theorem State.edgeTaken_channels (s : State) (ch : Channel) (forward : Bool) :
    let t := s.edgeTaken ch forward
    let c := (s.chan ch).onEdge forward s.now (s.par (pulseParam ch)) (s.par 0x22)
    t.spd.rope = (if ch = .rope then c else s.spd.rope) ∧ t.spd.drive = (if ch = .drive then c else s.spd.drive)
      ∧ t.spd.vMeas = s.spd.vMeas ∧ t.spd.restSince = none ∧ t.spd.restDue = none := by
  have left (u : State) : (u.leaveRest s).spd.rope = u.spd.rope ∧ (u.leaveRest s).spd.drive = u.spd.drive
      ∧ (u.leaveRest s).spd.vMeas = u.spd.vMeas ∧ (u.leaveRest s).spd.restSince = u.spd.restSince
      ∧ (u.leaveRest s).spd.restDue = u.spd.restDue :=
    have kept := u.leaveRest_channels s
    ⟨(kept .rope (by decide)).symm, (kept .drive (by decide)).symm, (kept .speed (by decide)).symm,
      (kept .rest (by decide)).1.symm, (kept .rest (by decide)).2.symm⟩
  cases ch <;> cases hr : s.atRest <;> simp [State.edgeTaken, State.setChan, State.chan, hr, left]

/-- The rest timer has run out: the line-at-rest flag is set (R26). -/
def State.restConfirmed (s : State) : State :=
  { s with spd := { s.spd with restDue := none, restSince := some s.now } }

/-- What the coming to rest does to the line: the trip reset wait starts in TRIPPED (R105), and elsewhere HAUL takes
it (R78). -/
def State.takeRest (s : State) : State := if s.haul.line = .tripped then s.beginWait else s.comeToRest

theorem execRestConfirm_of_due {s : State} {due : Nat} (h : s.spd.restDue = some due) :
    execRestConfirm s
      = .next (((((s.advance due).restConfirmed.takeRest).testBerthed .a).testBerthed .b).deriveBoarding) := by
  simp only [execRestConfirm, h]
  rfl

theorem State.takeRest_touches (s : State) : touches (.resetWait :: transitionParts) s s.takeRest :=
  touches.ite ((s.beginWait_touches).mono (by decide)) ((s.comeToRest_touches).mono (by decide))

/-! ### The invariant of one channel -/

/-- The invariant of a channel does not read its levels, its edge times and its direction. -/
theorem channelInv.congr {c d : SpeedChannel} (h : channelInv c) (hc : d.capture = c.capture)
    (hs : d.standDue = c.standDue) (hp : d.period = c.period) (hv : d.speed = c.speed) : channelInv d := by
  simpa only [channelInv, hc, hs, hp, hv] using h

/-- R22: a channel speed is held at 13,000 mm/s. -/
theorem channelSpeed_le (distance period : Nat) : channelSpeed distance period ≤ 13000 := Nat.min_le_left _ _

/-- A counting edge leaves its channel in agreement with its capture state, whatever it was before (R20 to R22). -/
theorem SpeedChannel.onEdge_channelInv (c : SpeedChannel) (forward : Bool) (now distance timeout : Nat) :
    channelInv (c.onEdge forward now distance timeout) := by
  cases h : c.capture <;> simp [SpeedChannel.onEdge, channelInv, h, channelSpeed_le]

theorem SpeedChannel.onEdge_capture (c : SpeedChannel) (forward : Bool) (now distance timeout : Nat) :
    (c.onEdge forward now distance timeout).capture ≠ .standstill := by
  cases h : c.capture <;> simp [SpeedChannel.onEdge, h]

/-- The first edge after STANDSTILL gives no speed (R21). -/
theorem SpeedChannel.onEdge_speed_of_standstill {c : SpeedChannel} (h : c.capture = .standstill) (forward : Bool)
    (now distance timeout : Nat) : (c.onEdge forward now distance timeout).speed = 0 := by
  simp [SpeedChannel.onEdge, h]

theorem SpeedChannel.stand_channelInv (c : SpeedChannel) : channelInv c.stand := by
  simp [SpeedChannel.stand, channelInv]

/-- A channel in STANDSTILL has speed 0 (R23). -/
theorem channelInv.speed_eq_zero {c : SpeedChannel} (h : channelInv c) (hc : c.capture = .standstill) : c.speed = 0 :=
  h.2.2.1 (by simp [hc])

/-! ### The invariant of the speed channels -/

/-- A change of other parts keeps the invariant. -/
theorem speedInv.of_keptBut {a : List Part} {s t : State} (h : speedInv s) (k : keptBut a s t)
    (ha : ∀ p ∈ channelParts, p ∉ a) : speedInv t := by
  have hr : s.spd.rope = t.spd.rope := k .rope (ha _ (by decide))
  have hd : s.spd.drive = t.spd.drive := k .drive (ha _ (by decide))
  have hv : s.spd.vMeas = t.spd.vMeas := k .speed (ha _ (by decide))
  obtain ⟨hs, hq⟩ : s.spd.restSince = t.spd.restSince ∧ s.spd.restDue = t.spd.restDue := k .rest (ha _ (by decide))
  simpa only [speedInv, hr, hd, hv, hs, hq] using h

/-- A change of a channel that keeps its capture state, timer, period and speed keeps the invariant. -/
theorem speedInv.setChan {s : State} (h : speedInv s) (ch : Channel) (c : SpeedChannel)
    (hc : c.capture = (s.chan ch).capture) (hs : c.standDue = (s.chan ch).standDue)
    (hp : c.period = (s.chan ch).period) (hv : c.speed = (s.chan ch).speed) : speedInv (s.setChan ch c) := by
  obtain ⟨rope, drive, meas, rest, once⟩ := h
  cases ch with
  | rope => exact ⟨rope.congr hc hs hp hv, drive, hv ▸ meas, hc ▸ rest, once⟩
  | drive => exact ⟨rope, drive.congr hc hs hp hv, hv ▸ meas, hc ▸ rest, once⟩

/-- A counting edge keeps the invariant: the line leaves rest, and v_meas follows where a speed is published (R20 to R22,
R25, R26). -/
theorem State.takeCountingEdge_speedInv {s : State} (h : speedInv s) (ch : Channel) (forward : Bool) :
    speedInv (s.takeCountingEdge ch forward) := by
  obtain ⟨rope, drive, meas, -, -⟩ := h
  obtain ⟨hr, hd, hv, hs, hq⟩ := s.edgeTaken_channels ch forward
  have inv := (s.chan ch).onEdge_channelInv forward s.now (s.par (pulseParam ch)) (s.par 0x22)
  have moving := (s.chan ch).onEdge_capture forward s.now (s.par (pulseParam ch)) (s.par 0x22)
  rw [State.takeCountingEdge_eq]
  refine speedInv.of_keptBut ?_ (State.deriveBoarding_touches _).1 (by decide)
  by_cases hc : (s.chan ch).capture = .standstill
  · have still := SpeedChannel.onEdge_speed_of_standstill hc forward s.now (s.par (pulseParam ch)) (s.par 0x22)
    rw [if_pos hc]
    cases ch with
    | rope =>
      have was : s.spd.rope.speed = 0 := rope.speed_eq_zero hc
      simp_all [speedInv]
    | drive =>
      have was : s.spd.drive.speed = 0 := drive.speed_eq_zero hc
      simp_all [speedInv]
  · rw [if_neg hc]
    cases ch <;> simp_all [speedInv]

/-- A raw change of a phase keeps the invariant: it is discarded, or changes a level, or is a counting edge (R19). -/
theorem State.phaseChange_speedInv {s : State} (h : speedInv s) (ch : Channel) (ph : QuadPhase) (level : Bool)
    (stamp : Nat) : speedInv (s.phaseChange ch ph level stamp) := by
  have h1 : speedInv (s.advance stamp) := h.of_keptBut (s.advance_touches stamp).1 (by decide)
  unfold State.phaseChange
  generalize s.advance stamp = u at h1
  cases ph with
  | a =>
    dsimp only
    split
    · exact h1
    split
    · exact h1
    split
    · exact h1.setChan ch _ rfl rfl rfl rfl
    · refine State.takeCountingEdge_speedInv ?_ ch level
      exact h1.setChan ch _ rfl rfl rfl rfl
  | b =>
    dsimp only
    split
    · exact h1
    split
    · exact h1
    · exact h1.setChan ch _ rfl rfl rfl rfl

/-- A channel that enters STANDSTILL keeps the invariant: v_meas becomes the other channel's speed, and the rest timer
starts when that one stands too (R23, R25, R26). -/
theorem State.stand_speedInv {s : State} (h : speedInv s) (ch : Channel) (hd : (s.chan ch).standDue.isSome) :
    speedInv ((((s.setChan ch (s.chan ch).stand).publish ch).startRestTimer).deriveBoarding) := by
  refine speedInv.of_keptBut ?_ (State.deriveBoarding_touches _).1 (by decide)
  obtain ⟨rope, drive, -, rest, -⟩ := h
  have inv := (s.chan ch).stand_channelInv
  cases ch with
  | rope =>
    have moving : s.spd.rope.capture ≠ .standstill := fun hc => by simp [State.chan, rope.1.1 hc] at hd
    unfold State.startRestTimer
    split <;> simp_all [speedInv, State.setChan, State.chan, SpeedChannel.stand]
  | drive =>
    have moving : s.spd.drive.capture ≠ .standstill := fun hc => by simp [State.chan, drive.1.1 hc] at hd
    unfold State.startRestTimer
    split <;> simp_all [speedInv, State.setChan, State.chan, SpeedChannel.stand]

/-- The invariant after the rest timer has run out and the flag is set (R26). -/
theorem State.restConfirmed_speedInv {s : State} (h : speedInv s) (hd : s.spd.restDue.isSome) :
    speedInv s.restConfirmed := by
  obtain ⟨rope, drive, meas, rest, -⟩ := h
  exact ⟨rope, drive, meas, by simp [State.restConfirmed, rest, hd], by simp [State.restConfirmed]⟩

/-- The state after power-on reset meets the invariant at every input level (R19, R24, R26). -/
theorem State.powerOn_speedInv (x : Levels) : speedInv (State.powerOn x) := by
  unfold State.powerOn
  dsimp only
  split
  · refine speedInv.of_keptBut ?_ (State.takeCause_touches _ .estop).1 (by decide)
    simp [speedInv, channelInv, State.reset, SpeedChannel.sampled, SpeedChannel.powerOn]
  · simp [speedInv, channelInv, State.reset, SpeedChannel.sampled, SpeedChannel.powerOn]

/-- Every command keeps the invariant of the speed channels. -/
theorem exec_speedInv {c : Instr} {s t : State} (h : speedInv s) (e : exec c s = .next t) : speedInv t := by
  cases c with
  | countingEdge ch level stamp => cases e; exact State.phaseChange_speedInv h ch .a level stamp
  | takenPhaseEdge ch ph level stamp => cases e; exact State.phaseChange_speedInv h ch ph level stamp
  | standstillTimeout ch =>
    cases e
    unfold onExpiry
    split
    case h_1 due hd =>
      have advanced : speedInv (s.advance due) := h.of_keptBut (s.advance_touches due).1 (by decide)
      exact State.stand_speedInv advanced ch (by cases ch <;> simp_all [State.chan])
    case h_2 => exact h
  | restConfirm =>
    cases hd : s.spd.restDue with
    | none => simp only [exec, execRestConfirm, hd, onExpiry] at e; cases e; exact h
    | some due =>
      cases (execRestConfirm_of_due hd).symm.trans e
      have confirmed := State.restConfirmed_speedInv (h.of_keptBut (s.advance_touches due).1 (by decide)) (by simp [hd])
      exact confirmed.of_keptBut ((((State.takeRest_touches _).trans (State.testBerthed_touches _ .a)).trans
        (State.testBerthed_touches _ .b)).trans (State.deriveBoarding_touches _)).1 (by decide)
  | powerOnReset x => cases e; exact State.powerOn_speedInv x
  | _ => exact h.of_keptBut (exec_keptBut e (by intros; exact Instr.noConfusion)) (by simp only [partsOf]; decide)

/-- Settles O9, by cases over the commands: five of them touch the channels or the rest flag, and each other one keeps
them by its frame. -/
theorem speedChannelsAgreeWithTheRestFlag : Obligations.SpeedChannelsAgreeWithTheRestFlag := by
  intro s t h e
  unfold step at e
  split at e
  · cases e; exact h
  · exact exec_speedInv (by exact h) e

end Sys2Proof.Machine
end

-- ==== The line state, its outputs and the published speeds ====
section
/-! The outputs and the published speeds follow the line state: every operation that changes the line keeps lineInv, and
so does every command. -/

namespace Sys2Proof.Machine

/-- The parts of the state that lineInv reads. -/
abbrev followParts : List Part := [.line, .outputs, .speeds, .rollback]

/-- A change of other parts keeps the invariant. -/
theorem lineInv.of_keptBut {a : List Part} {s t : State} (h : lineInv s) (k : keptBut a s t)
    (ha : ∀ p ∈ followParts, p ∉ a) : lineInv t := by
  have hl : s.haul.line = t.haul.line := k .line (ha _ (by decide))
  have hr : s.spd.rollback = t.spd.rollback := k .rollback (ha _ (by decide))
  obtain ⟨hd, hb, hc⟩ : _ ∧ _ ∧ _ := k .outputs (ha _ (by decide))
  obtain ⟨hp, hs, hm, -⟩ : _ ∧ _ ∧ _ ∧ _ := k .speeds (ha _ (by decide))
  simpa only [lineInv, hl, hr, hd, hb, hc, hp, hs, hm] using h

theorem lineInv.of_touches {a : List Part} {s t : State} (h : lineInv s) (k : touches a s t)
    (ha : ∀ p ∈ followParts, p ∉ a) : lineInv t := h.of_keptBut k.1 ha

/-- v_sup lies within its range (R85). -/
theorem lineInv.vSup_le {s : State} (h : lineInv s) : s.haul.vSup ≤ 12000 := by
  obtain ⟨-, -, -, -, -, -, -, -, hs, -⟩ := h
  exact hs

/-- The outputs, v_dem and the rollback condition as a transition sets them (R29, R63, R86, R102). -/
def outputsFollow (s : State) : Prop :=
  s.haul.driveEnable = s.haul.line.running
    ∧ (s.osb.safetyReleased = true ↔ s.haul.line ≠ .parked ∧ s.haul.line ≠ .tripped)
    ∧ (s.osb.serviceReleased = true ↔ s.haul.line = .moving)
    ∧ s.haul.vDem = 0 ∧ (s.haul.line.running = false → s.spd.rollback = false)

theorem State.setLine_outputsFollow (s : State) (l : LineState) : outputsFollow (s.setLine l) := by
  cases l <;> simp [outputsFollow, State.setLine, LineState.running, LineState.safetyReleased,
    LineState.serviceReleased, State.raise]

theorem outputsFollow.of_touches {a : List Part} {s t : State} (h : outputsFollow s) (k : touches a s t)
    (ha : ∀ p ∈ followParts, p ∉ a) : outputsFollow t := by
  have hl : s.haul.line = t.haul.line := k.1 .line (ha _ (by decide))
  have hr : s.spd.rollback = t.spd.rollback := k.1 .rollback (ha _ (by decide))
  obtain ⟨hd, hb, hc⟩ : _ ∧ _ ∧ _ := k.1 .outputs (ha _ (by decide))
  obtain ⟨-, -, hm, -⟩ : _ ∧ _ ∧ _ ∧ _ := k.1 .speeds (ha _ (by decide))
  simpa only [outputsFollow, hl, hr, hd, hb, hc, hm] using h

/-- A transition and its speeds together make the invariant. -/
theorem outputsFollow.lineInv {s : State} (h : outputsFollow s) (order : s.haul.vPerm ≤ s.haul.vSup)
    (range : s.haul.vSup ≤ 12000) (stopped : s.haul.line.running = false → s.haul.vPerm = 0)
    (service : s.haul.line = .parked ∨ s.haul.line = .dwell → s.haul.vSup = 0) : lineInv s := by
  obtain ⟨enable, safety, brake, dem, rollback⟩ := h
  exact ⟨enable, safety, brake, fun _ => dem, stopped, service, dem ▸ Nat.zero_le _, order, range, rollback⟩

/-! ### Transitions -/

/-- A transition between two sub-phases of RUNNING leaves the speeds (R93, R94). -/
theorem lineInv.setLine_running {s : State} (h : lineInv s) {l : LineState} (hl : l.running = true) :
    lineInv (s.setLine l) := by
  obtain ⟨-, -, -, -, -, -, -, order, range, -⟩ := h
  refine (s.setLine_outputsFollow l).lineInv ?_ ?_ (fun k => by simp_all)
    (fun k => by rcases k with k | k <;> simp_all [LineState.running])
  · cases l <;> exact order
  · cases l <;> exact range

/-- With the outputs set for a stopped line, v_perm at 0 makes the invariant in HALTED and TRIPPED (R76, R101). -/
theorem outputsFollow.setPerm_zero {s : State} (h : outputsFollow s) (range : s.haul.vSup ≤ 12000)
    (hl : s.haul.line = .halted ∨ s.haul.line = .tripped) : Machine.lineInv (s.setPerm 0) :=
  outputsFollow.lineInv h (Nat.zero_le _) range (fun _ => rfl) fun k => by
    have k' : s.haul.line = .parked ∨ s.haul.line = .dwell := k
    rcases hl with hl | hl <;> simp [hl] at k'

/-- The speeds of DWELL and PARKED are 0 (R66, R67, R78). -/
theorem outputsFollow.dwellSpeeds {s : State} (h : outputsFollow s) : Machine.lineInv s.dwellSpeeds :=
  outputsFollow.lineInv h (Nat.zero_le _) (Nat.zero_le _) (fun _ => rfl) fun _ => rfl

theorem State.setLine_vSup (s : State) (l : LineState) : (s.setLine l).haul.vSup = s.haul.vSup := by
  cases l <;> rfl

theorem lineInv.enterHalted {s : State} (h : lineInv s) (c : HaltCause) : lineInv (s.enterHalted c) := by
  have stopped := (s.setLine_outputsFollow .halted).setPerm_zero (h.vSup_le) (.inl rfl)
  exact lineInv.of_touches (s := (((s.setLine .halted).setHalt c).setPerm 0).stopTorque) stopped
    (State.discardRecords_touches _) (by decide)

theorem lineInv.haltEvent {s : State} (h : lineInv s) (c : HaltCause) : lineInv (s.haltEvent c) := by
  unfold State.haltEvent
  split
  · exact h.enterHalted c
  · exact h

theorem State.enterDwell_lineInv (s : State) (k : Nat) : lineInv (s.enterDwell k) :=
  (s.setLine_outputsFollow .dwell).dwellSpeeds.of_touches (State.createRecords_touches _ k) (by decide)

theorem State.returnToDwell_lineInv (s : State) (c : HaltCause) : lineInv (s.returnToDwell c) :=
  lineInv.of_touches (s.setLine_outputsFollow .dwell).dwellSpeeds
    (((State.setHalt_touches _ c).trans (State.moveAlarm_touches _ .a)).trans (State.moveAlarm_touches _ .b))
    (by decide)

theorem State.enterParked_lineInv (s : State) : lineInv s.enterParked :=
  ((s.setLine_outputsFollow .parked).of_touches (State.discardRecords_touches _) (by decide)).dwellSpeeds

theorem lineInv.endStart {s : State} (h : lineInv s) (a b : HaltCause) : lineInv (s.endStart a b) := by
  unfold State.endStart
  split
  · split
    · exact s.returnToDwell_lineInv a
    · exact h.enterHalted b
  · exact h.enterHalted b

theorem lineInv.comeToRest {s : State} (h : lineInv s) : lineInv s.comeToRest := by
  unfold State.comeToRest
  split
  · exact s.enterDwell_lineInv _
  · exact s.enterDwell_lineInv _
  · exact s.enterDwell_lineInv _
  · exact h.enterHalted _
  · exact h.enterHalted _
  · exact h

/-! ### Trip causes and the comparison -/

theorem lineInv.enterTripped {s : State} (h : lineInv s) (c : TripCause) : lineInv (s.enterTripped c) := by
  have stopped := ((s.latch c).setLine_outputsFollow .tripped).setPerm_zero h.vSup_le (.inr rfl)
  exact lineInv.of_touches (s := (((s.latch c).setLine .tripped).setPerm 0).stopTorque) stopped
    ((((State.dropHold_touches _ c).trans (State.beginWait_touches _)).trans (State.setSuspended_touches _ true)).trans
      (State.raise_touches _ .trip)) (by decide)

theorem lineInv.takeCause {s : State} (h : lineInv s) (c : TripCause) : lineInv (s.takeCause c) := by
  have further : lineInv (s.addFurther c) := h.of_touches (s.addFurther_touches c) (by decide)
  unfold State.takeCause
  split
  case h_1 => split; exacts [further, h]
  case h_2 => split; exacts [h, further.of_touches (State.dropHold_touches _ c) (by decide)]
  all_goals exact h.enterTripped c

theorem lineInv.takeAll {s : State} (h : lineInv s) (cs : List TripCause) : lineInv (s.takeAll cs) := by
  unfold State.takeAll
  induction cs generalizing s with
  | nil => exact h
  | cons c cs ih => exact ih (h.takeCause c)

theorem lineInv.bumpChoice {s : State} (h : lineInv s) : lineInv s.bumpChoice :=
  h.of_touches s.bumpChoice_touches (by decide)

theorem lineInv.takeBoth {s : State} (h : lineInv s) (c d : TripCause) : lineInv (s.takeBoth c d) := by
  unfold State.takeBoth
  split <;> exact h.bumpChoice.takeAll _

theorem lineInv.compare {s : State} (h : lineInv s) : lineInv s.compare := by
  unfold State.compare
  split
  · split
    · exact (h.setLine_running (l := .intervening) rfl : lineInv (s.setLine .intervening))
    · split
      · exact (h.setLine_running (l := .moving) rfl : lineInv (s.setLine .moving))
      · exact h
  · exact h.takeAll _

theorem lineInv.compareWith {s : State} (h : lineInv s) (c : TripCause) : lineInv (s.compareWith c) := by
  unfold State.compareWith
  split
  · split
    · exact h.bumpChoice.takeAll _
    · exact h.bumpChoice.compare.takeCause c
  · exact h.takeCause c

/-- The rollback condition is present in RUNNING alone (R29). -/
theorem State.running_of_rollbackMet {s : State} (h : s.rollbackMet = true) : s.haul.line.running = true := by
  simp only [State.rollbackMet, Bool.and_eq_true] at h
  exact h.1.1.1

theorem lineInv.setRollback {s : State} (h : lineInv s) :
    lineInv { s with spd := { s.spd with rollback := s.rollbackMet } } := by
  obtain ⟨enable, safety, brake, dem, stopped, service, below, order, range, -⟩ := h
  refine ⟨enable, safety, brake, dem, stopped, service, below, order, range, fun k => ?_⟩
  exact Bool.eq_false_iff.2 fun met => by simp [State.running_of_rollbackMet met] at k

theorem lineInv.compareRollback {s : State} (h : lineInv s) : lineInv s.compareRollback := by
  unfold State.compareRollback
  split
  · exact h.setRollback.compareWith _
  · exact h.setRollback.compare

theorem lineInv.publish {s : State} (h : lineInv s) (ch : Channel) : lineInv (s.publish ch) := by
  have tested : lineInv ({ s with spd := { s.spd with vMeas := max s.spd.rope.speed s.spd.drive.speed } }).slipTest :=
    lineInv.of_touches (s := { s with spd := { s.spd with vMeas := max s.spd.rope.speed s.spd.drive.speed } }) h
      (State.slipTest_touches _) (by decide)
  cases ch with
  | rope => exact tested.compareRollback
  | drive => exact tested.compare

/-! ### Starts and haul samples -/

/-- v_perm is clamped to 12,000 mm/s (R81). -/
theorem leastSpeed_le (l : List Nat) : leastSpeed l ≤ 12000 := by
  induction l with
  | nil => exact Nat.le_refl _
  | cons x l ih => exact (Nat.min_le_right _ _).trans ih

theorem State.permitted_le (s : State) : s.permitted ≤ 12000 := by
  unfold State.permitted
  split
  · split
    · exact leastSpeed_le _
    · exact Nat.zero_le _
  · exact Nat.zero_le _

theorem State.permitted_of_stopped {s : State} (h : s.haul.line.running = false) : s.permitted = 0 := by
  simp [State.permitted, State.running, h]

/-- The state at an entry to STARTING ahead of its first v_perm: the run record, the transition, the drive direction and
the torque-ready timer (R64, R70, R73). -/
def State.started (s : State) (r : RunRecord) : State :=
  let s1 := ((s.setRun (some r)).setLine .starting).setHalt .noCause
  { s1 with haul := { s1.haul with
    driveDirHigh := s.directionLevel r.up, torqueDue := some (s.now + ms (s.par 0x69)) } }

/-- The first v_perm of a run becomes v_sup and is published (R87). -/
def State.firstSpeeds (s : State) : State := (s.setPerm s.permitted).publishSup s.permitted

theorem State.enterStarting_eq (s : State) (r : RunRecord) :
    s.enterStarting r = (((s.started r).firstSpeeds).compareRollback).deriveBoarding := rfl

theorem State.started_outputsFollow (s : State) (r : RunRecord) : outputsFollow (s.started r) :=
  (s.setRun (some r)).setLine_outputsFollow .starting

theorem outputsFollow.firstSpeeds {s : State} (h : outputsFollow s) (hl : s.haul.line = .starting) :
    Machine.lineInv s.firstSpeeds := by
  have follow : outputsFollow s.firstSpeeds := h
  have line : s.firstSpeeds.haul.line = .starting := hl
  exact follow.lineInv (Nat.le_refl s.permitted) s.permitted_le (fun k => by simp [line, LineState.running] at k)
    fun k => by simp [line] at k

theorem State.enterStarting_lineInv (s : State) (r : RunRecord) : lineInv (s.enterStarting r) := by
  rw [State.enterStarting_eq]
  exact ((s.started_outputsFollow r).firstSpeeds rfl).compareRollback.of_touches (State.deriveBoarding_touches _)
    (by decide)

/-- The speeds that a haul sample publishes keep the order of R80, R85 and R86. -/
theorem lineInv.haulSpeeds {s : State} (h : lineInv s) :
    lineInv { (s.publishSup (s.nextSup s.permitted)).setPerm s.permitted with
      haul := { ((s.publishSup (s.nextSup s.permitted)).setPerm s.permitted).haul with
        vDem := s.nextDem s.permitted, rampFrom := s.nextDem s.permitted } } := by
  obtain ⟨enable, safety, brake, -, -, service, -, -, range, rollback⟩ := h
  have limit := s.permitted_le
  refine ⟨enable, safety, brake, fun k => if_neg k, fun k => State.permitted_of_stopped k, fun k => ?_, ?_,
    Nat.le_max_left _ _, ?_, rollback⟩
  · have stopped : s.haul.line.running = false := by rcases k with k | k <;> exact (congrArg _ k)
    show max s.permitted (s.haul.vSup - _) = 0
    rw [State.permitted_of_stopped stopped, service k, Nat.zero_sub, Nat.max_self]
  · show s.nextDem s.permitted ≤ s.permitted
    unfold State.nextDem
    split
    · exact Nat.min_le_left _ _
    · exact Nat.zero_le _
  · show max s.permitted (s.haul.vSup - _) ≤ 12000
    omega

theorem lineInv.haulStep {s : State} (h : lineInv s) : lineInv s.haulStep := by
  have arrived : lineInv (if s.arrivedUnreferenced then s.enterHalted .notReferenced else s) := by
    split
    · exact h.enterHalted _
    · exact h
  unfold State.haulStep
  generalize (if s.arrivedUnreferenced then s.enterHalted .notReferenced else s) = u at arrived
  dsimp only
  split
  · exact arrived.haulSpeeds.compareWith _
  · exact arrived.haulSpeeds.compare

/-! ### The commands that change the line -/

/-- A line-link command keeps the invariant where its rule on its fields does. -/
theorem lineInv.withForm {α : Type} {code : Byte} {p : Form α} {s t : State} {f : α → State} (h : lineInv s)
    (e : withForm code p s f = .next t) (hf : ∀ x, Machine.lineInv (f x)) : lineInv t := by
  cases p with
  | wrongLength => cases e; exact h
  | fields x => cases e; exact hf x

/-- An expiry keeps the invariant where its effect does. -/
theorem lineInv.onExpiry {s : State} (h : lineInv s) (due : Option Nat) (f : State → State)
    (hf : ∀ u, Machine.lineInv u → Machine.lineInv (f u)) : lineInv (onExpiry due s f) := by
  unfold Machine.onExpiry
  split
  · exact hf _ h
  · exact h

theorem lineInv.derive {s : State} (h : lineInv s) : lineInv s.deriveBoarding :=
  h.of_touches s.deriveBoarding_touches (by decide)

theorem lineInv.unpark {s : State} (h : lineInv s) : lineInv (unpark s) := by
  have entered : lineInv (match s.current with
      | some k => s.enterDwell k
      | none => s.enterHalted .offBerth) := by
    split
    · exact s.enterDwell_lineInv _
    · exact h.enterHalted _
  unfold Machine.unpark
  split_ifs
  · exact h
  · exact h
  · exact h
  · exact h
  · exact h
  · exact h
  · exact entered.derive

theorem lineInv.park {s : State} (h : lineInv s) : lineInv (park s) := by
  unfold Machine.park
  split_ifs
  · exact h
  · exact h
  · exact h
  · exact s.enterParked_lineInv.derive

theorem lineInv.startRun {s : State} (h : lineInv s) (a : RunArgs) : lineInv (startRun a s) := by
  unfold Machine.startRun
  dsimp only
  repeat
    split
    · exact h
  exact s.enterStarting_lineInv _

theorem lineInv.resume {s : State} (h : lineInv s) : lineInv (resume s) := by
  unfold Machine.resume
  repeat
    split
    · exact h
  exact s.enterStarting_lineInv _

theorem lineInv.stopRun {s : State} (h : lineInv s) : lineInv (stopRun s) := by
  unfold Machine.stopRun
  split_ifs
  · exact (h.enterHalted _).derive
  · exact h
  · exact h

theorem lineInv.leaveTripped {s : State} (h : lineInv s) : lineInv s.leaveTripped := by
  have dwell : lineInv ((s.clearLatch.setLine .dwell).dwellSpeeds) :=
    (State.setLine_outputsFollow _ .dwell).dwellSpeeds
  unfold State.leaveTripped
  dsimp only
  split
  · split
    · exact dwell.of_touches (((((State.setSuspended_touches _ false).trans (State.moveAlarm_touches _ .a)).trans
        (State.moveAlarm_touches _ .b)).trans (State.testBerthed_touches _ .a)).trans (State.testBerthed_touches _ .b))
        (by decide)
    · exact dwell.of_touches ((State.discardRecords_touches _).trans (State.createRecords_touches _ _)) (by decide)
  · exact lineInv.enterHalted (s := s.clearLatch) h _

theorem lineInv.resetTrip {s : State} (h : lineInv s) : lineInv (resetTrip s) := by
  unfold Machine.resetTrip
  split
  case h_1 =>
    split
    · exact h
    · exact h.leaveTripped.derive
  case h_2 =>
    split
    · exact h
    · exact h
  all_goals exact h

theorem State.softReset_lineInv (s : State) : lineInv s.softReset := by
  unfold State.softReset
  refine lineInv.derive (s := (((s.clearClaims.enterParked).resetHaul).resetOsb).resetStp) ?_
  obtain ⟨enable, safety, brake, -, stopped, service, -, order, range, rollback⟩ := s.clearClaims.enterParked_lineInv
  exact ⟨enable, safety, brake, fun _ => rfl, stopped, service, Nat.zero_le _, order, range, rollback⟩

theorem lineInv.softReset {s : State} (h : lineInv s) : lineInv (softReset s) := by
  unfold Machine.softReset
  split
  case h_1 => exact s.softReset_lineInv
  case h_2 => split; exacts [s.softReset_lineInv, h]
  case h_3 => split; exacts [s.softReset_lineInv, h]
  all_goals exact h

theorem lineInv.leaveRest {s : State} (h : lineInv s) (b : State) : lineInv (s.leaveRest b) := by
  have left : lineInv ({ s with osb := { s.osb with resetDue := none, resetElapsed := false } }).endEvacuations := h
  unfold State.leaveRest
  dsimp only
  split
  · exact left.takeBoth _ _
  · exact left.takeCause _
  · exact left.takeCause _
  · exact left

theorem lineInv.edgeTaken {s : State} (h : lineInv s) (ch : Channel) (forward : Bool) :
    lineInv (s.edgeTaken ch forward) := by
  have edge : lineInv (if ch = .rope then s.countRope forward else s) := by
    split
    · exact h.of_touches (s.countRope_touches forward) (by decide)
    · exact h
  unfold State.edgeTaken
  generalize (if ch = .rope then s.countRope forward else s) = u at edge
  have counted : lineInv (u.setChan ch ((u.chan ch).onEdge forward s.now (s.par (pulseParam ch)) (s.par 0x22))) :=
    edge.of_touches (u.setChan_touches ch _) (by decide)
  dsimp only
  split
  · exact lineInv.leaveRest (by exact counted) s
  · exact counted

theorem lineInv.takeCountingEdge {s : State} (h : lineInv s) (ch : Channel) (forward : Bool) :
    lineInv (s.takeCountingEdge ch forward) := by
  rw [State.takeCountingEdge_eq]
  refine lineInv.derive ?_
  split
  · exact h.edgeTaken ch forward
  · exact (h.edgeTaken ch forward).publish ch

theorem lineInv.phaseChange {s : State} (h : lineInv s) (ch : Channel) (ph : QuadPhase) (level : Bool) (stamp : Nat) :
    lineInv (s.phaseChange ch ph level stamp) := by
  have set (c : SpeedChannel) : lineInv ((s.advance stamp).setChan ch c) :=
    lineInv.of_touches (s := s.advance stamp) h (State.setChan_touches _ ch c) (by decide)
  unfold State.phaseChange
  dsimp only
  cases ph with
  | a =>
    dsimp only
    split_ifs
    · exact h
    · exact h
    · exact set _
    · exact (set _).takeCountingEdge ch level
  | b =>
    dsimp only
    split_ifs
    · exact h
    · exact h
    · exact set _

theorem lineInv.stand {s : State} (h : lineInv s) (ch : Channel) (c : SpeedChannel) :
    lineInv ((((s.setChan ch c).publish ch).startRestTimer).deriveBoarding) :=
  (((h.of_touches (s.setChan_touches ch c) (by decide)).publish ch).of_touches (State.startRestTimer_touches _)
    (by decide)).derive

theorem lineInv.takeRest {s : State} (h : lineInv s) : lineInv s.takeRest := by
  unfold State.takeRest
  split
  · exact h
  · exact h.comeToRest

theorem lineInv.positionFault {s : State} (h : lineInv s) : lineInv s.positionFault :=
  lineInv.haltEvent (s := State.raise { s with geo := { s.geo with referenced := false } } .positionFault) h _

theorem lineInv.takeDatum {s : State} (h : lineInv s) (berth : Nat) : lineInv (s.takeDatum berth) := by
  have fixed : lineInv (s.fixPosition (s.datumPoint berth)) := h.of_touches (s.fixPosition_touches _) (by decide)
  unfold State.takeDatum
  split
  · split; exacts [fixed, h.positionFault]
  · split; exacts [h, h.positionFault]
  · exact fixed
  · exact h
  · exact h.positionFault

/-! ### The conditions of the monitor -/

theorem lineInv.setCond {s : State} (h : lineInv s) (k : CondId) (c : Cond) : lineInv (s.setCond k c) :=
  h.of_touches (s.setCond_touches k c) (by decide)

theorem lineInv.raiseCond {s : State} (h : lineInv s) (k : CondId) : lineInv (s.raiseCond k) := by
  have raised : lineInv ((s.setCond k ⟨true, 0, 0⟩).raise .monitor) := h.setCond k _
  unfold State.raiseCond State.raiseEffect
  cases k with
  | w1 => exact raised.of_touches (State.writeWind_touches _) (by decide)
  | frost => exact raised.of_touches (State.writeFrost_touches _) (by decide)
  | slack => exact raised.takeCause _
  | overtension => exact raised.haltEvent _
  | w2 => exact raised
  | m1 => exact raised
  | m2 => exact raised

theorem lineInv.clearCond {s : State} (h : lineInv s) (k : CondId) : lineInv (s.clearCond k) := by
  have cleared : lineInv ((s.setCond k ⟨false, 0, 0⟩).raise .monitor) := h.setCond k _
  unfold State.clearCond State.clearEffect
  cases k with
  | w1 => exact cleared.of_touches (State.freeWind_touches _) (by decide)
  | frost => exact cleared.of_touches (State.setEntry_touches _ _ _) (by decide)
  | slack => exact cleared
  | overtension => exact cleared
  | w2 => exact cleared
  | m1 => exact cleared
  | m2 => exact cleared

theorem lineInv.evalCond {s : State} (h : lineInv s) (v : Int) (k : CondId) : lineInv (s.evalCond v k) := by
  unfold State.evalCond
  dsimp only
  split_ifs
  · exact h.clearCond k
  · exact h.setCond k _
  · exact h.setCond k _
  · exact h.raiseCond k
  · exact h.setCond k _
  · exact h.setCond k _

theorem lineInv.forceCond {s : State} (h : lineInv s) (k : CondId) : lineInv (s.forceCond k) := by
  unfold State.forceCond
  dsimp only
  split
  · exact h.setCond _ _
  · split
    · exact h.setCond _ _
    · exact h.raiseCond _

/-- An operation that keeps the invariant keeps it along a list. -/
theorem lineInv.foldl {α : Type} (f : State → α → State) (hf : ∀ s x, Machine.lineInv s → Machine.lineInv (f s x))
    (l : List α) {s : State} (h : lineInv s) : lineInv (l.foldl f s) := by
  induction l generalizing s with
  | nil => exact h
  | cons x l ih => exact ih (hf s x h)

theorem lineInv.sampleChannel {s : State} (h : lineInv s) (ch : MonChannel) (r : Nat) :
    lineInv (s.sampleChannel ch r) := by
  have set (c : MonChannelState) : lineInv (s.setMonChannel ch c) :=
    h.of_touches (s.setMonChannel_touches ch c) (by decide)
  unfold State.sampleChannel
  dsimp only
  split
  · refine lineInv.foldl _ (fun _ k hu => hu.forceCond k) _ ?_
    split <;> exact set _
  · refine lineInv.foldl _ (fun _ k hu => hu.evalCond _ k) _ ?_
    split <;> exact set _

/-! ### Uplinks and power-on -/

theorem lineInv.lineUplink {s : State} (h : lineInv s) (c : Car) : lineInv (s.lineUplink c) := by
  unfold State.lineUplink
  split
  · exact h
  split
  · exact h.endStart _ _
  · exact h.takeCause _
  · exact h.takeCause _
  · split; exacts [h, h.takeCause _]
  · exact h
  · exact h
  · exact h

theorem lineInv.actUplink {s : State} (h : lineInv s) (c : Car) (r : Report) : lineInv (s.actUplink c r) := by
  have acted : lineInv (((s.takeReport c r).lineUplink c).recordUplink c) :=
    ((h.of_touches (s.takeReport_touches c r) (by decide)).lineUplink c).of_touches (State.recordUplink_touches _ c)
      (by decide)
  unfold State.actUplink
  dsimp only
  split
  · exact acted.of_touches (State.takeAlarm_touches _ c) (by decide)
  · exact acted

theorem State.powerOn_lineInv (x : Levels) : lineInv (State.powerOn x) := by
  have reset : lineInv State.reset := by
    simp [lineInv, State.reset, LineState.running]
  unfold State.powerOn
  dsimp only
  split
  · exact lineInv.takeCause (by exact reset) .estop
  · exact reset

theorem lineInv.torqueReady {s t : State} (h : lineInv s) (e : execTorqueReady s = .next t) : lineInv t := by
  cases e
  have active : lineInv { s with haul := { s.haul with torqueReady := true } } := h
  dsimp only
  split_ifs
  · exact h
  · have stopped : lineInv (State.stopTorque { s with haul := { s.haul with torqueReady := true } }) := active
    exact ((stopped.of_touches (State.discardRecords_touches _) (by decide)).setLine_running rfl).derive
  · exact active

/-- Every command keeps the outputs and the published speeds in agreement with the line state. -/
theorem exec_lineInv {c : Instr} {s t : State} (h : lineInv s) (e : exec c s = .next t) : lineInv t := by
  cases c with
  | unpark p => exact h.withForm e fun _ => h.unpark
  | park p => exact h.withForm e fun _ => h.park
  | startRun p => exact h.withForm e fun a => h.startRun a
  | stopRun p => exact h.withForm e fun _ => h.stopRun
  | resume p => exact h.withForm e fun _ => h.resume
  | emergencyStop p => exact h.withForm e fun _ => (h.takeCause .commanded).derive
  | resetTrip p => exact h.withForm e fun _ => h.resetTrip
  | softReset p => exact h.withForm e fun _ => h.softReset
  | countingEdge ch level stamp => cases e; exact h.phaseChange ch .a level stamp
  | takenPhaseEdge ch ph level stamp => cases e; exact h.phaseChange ch ph level stamp
  | standstillTimeout ch => cases e; exact h.onExpiry _ _ fun u hu => hu.stand ch _
  | restConfirm =>
    cases e
    refine h.onExpiry _ _ fun u hu => ?_
    exact (lineInv.of_touches (s := u.restConfirmed.takeRest) (lineInv.takeRest hu)
      ((State.testBerthed_touches _ .a).trans (State.testBerthed_touches _ .b)) (by decide)).derive
  | slipTimerExpiry =>
    cases e
    refine h.onExpiry _ _ fun u hu => ?_
    exact (lineInv.takeCause (by exact hu) _).derive
  | datumEdge k =>
    cases e
    have set : lineInv (s.setDatum k true) := h
    dsimp only
    split_ifs
    · exact h
    · exact ((set.takeDatum _).of_touches ((State.testBerthed_touches _ .a).trans (State.testBerthed_touches _ .b))
        (by decide)).derive
    · exact set
  | monitorSample ch r => cases e; exact (lineInv.sampleChannel (by exact h) ch r.toNat).derive
  | haulSample => cases e; exact (lineInv.haulStep (by exact h)).derive
  | torqueReady => exact h.torqueReady e
  | torqueReadyTimeout => cases e; exact h.onExpiry _ _ fun u hu => (lineInv.endStart (s := u.stopTorque) hu _ _).derive
  | emergencyStopInput level =>
    cases e
    dsimp only
    split_ifs
    · exact h
    · exact (lineInv.takeCause (by exact h) .estop).derive
    · exact h
  | driveFaultInput level =>
    cases e
    dsimp only
    split_ifs
    · exact h
    · exact (lineInv.takeCause (by exact h) .driveFault).derive
    · exact h
  | uplink c ok frame =>
    cases e
    split
    · exact (h.actUplink _ _).derive
    · exact h
  | carLinkTimeout c =>
    cases e
    refine h.onExpiry _ _ fun u hu => ?_
    refine (lineInv.haltEvent ?_ _).derive
    exact hu.of_touches ((u.setCar_touches c _).trans (State.raise_touches _ .carLink)) (by decide)
  | powerOnReset x => cases e; exact State.powerOn_lineInv x
  | _ => exact h.of_keptBut (exec_keptBut e (by intros; exact Instr.noConfusion)) (by simp only [partsOf]; decide)

/-- Settles O8, by cases over the commands: each one that changes the line state, an output or a published speed does it
through operations that keep the invariant, and each other one keeps those parts by its frame. -/
theorem outputsAndSpeedsFollowTheLineState : Obligations.OutputsAndSpeedsFollowTheLineState := by
  intro s t h e
  unfold step at e
  split at e
  · cases e; exact h
  · exact exec_lineInv (by exact h) e

end Sys2Proof.Machine
end

-- ==== The line status record ====
section
/-! READ LINE STATUS: the record of section 11.2.1 is five blocks one after the other, and each byte is read in its
block. -/

namespace Sys2Proof.Machine

/-- A list of so many bytes stands within another at an offset. -/
def BlockAt (d b : List Byte) (off len : Nat) : Prop :=
  ∃ pre post, d = pre ++ (b ++ post) ∧ pre.length = off ∧ b.length = len

/-- A number in one byte is that byte. -/
theorem be1_eq (v : Nat) : be1 v = [BitVec.ofNat 8 v] := by simp [be1, beBytes]

theorem BlockAt.byte {d b : List Byte} {off len : Nat} (h : BlockAt d b off len) (k : Nat) {v : Nat} (hk : k < len)
    (hv : b[k]? = (be1 v)[0]?) : d[off + k]? = some (BitVec.ofNat 8 v) := by
  obtain ⟨pre, post, rfl, rfl, rfl⟩ := h
  rw [List.getElem?_append_right (Nat.le_add_right _ _), Nat.add_sub_cancel_left, List.getElem?_append_left hk, hv,
    be1_eq]
  rfl

theorem BlockAt.slice {d b : List Byte} {off len : Nat} (h : BlockAt d b off len) (k n : Nat) (hk : k + n ≤ len) :
    (d.drop (off + k)).take n = (b.drop k).take n := by
  obtain ⟨pre, post, rfl, rfl, rfl⟩ := h
  rw [← List.drop_drop, List.drop_left, List.drop_append_of_le_length (by omega),
    List.take_append_of_le_length (by rw [List.length_drop]; omega)]

/-- The run record takes 8 bytes in every case. -/
theorem runBytes_length (r : Option RunRecord) : (runBytes r).length = 8 := by cases r <;> rfl

theorem State.statusHaul_length (s : State) : s.statusHaul.length = 22 := by
  simp only [State.statusHaul, List.length_append, runBytes_length]
  rfl

/-- The record has 79 bytes (R185). -/
theorem State.lineStatus_length (s : State) : s.lineStatus.length = 79 := by
  simp only [State.lineStatus, List.length_append, State.statusHaul_length]
  rfl

/-! ### The blocks of the record -/

theorem State.lineStatus_geo (s : State) : BlockAt s.lineStatus s.statusGeo 0 15 :=
  ⟨[], s.statusSpeed ++ (s.statusHaul ++ (s.statusOsb ++ s.statusRest)),
    by simp only [State.lineStatus, List.append_assoc, List.nil_append], rfl, rfl⟩

theorem State.lineStatus_speed (s : State) : BlockAt s.lineStatus s.statusSpeed 15 21 :=
  ⟨s.statusGeo, s.statusHaul ++ (s.statusOsb ++ s.statusRest), by simp only [State.lineStatus, List.append_assoc],
    rfl, rfl⟩

theorem State.lineStatus_haul (s : State) : BlockAt s.lineStatus s.statusHaul 36 22 :=
  ⟨s.statusGeo ++ s.statusSpeed, s.statusOsb ++ s.statusRest, by simp only [State.lineStatus, List.append_assoc],
    rfl, s.statusHaul_length⟩

theorem State.lineStatus_osb (s : State) : BlockAt s.lineStatus s.statusOsb 58 15 :=
  ⟨s.statusGeo ++ s.statusSpeed ++ s.statusHaul, s.statusRest, by simp only [State.lineStatus, List.append_assoc],
    by simp only [List.length_append, State.statusHaul_length]; rfl, rfl⟩

theorem State.lineStatus_rest (s : State) : BlockAt s.lineStatus s.statusRest 73 6 :=
  ⟨s.statusGeo ++ s.statusSpeed ++ s.statusHaul ++ s.statusOsb, [],
    by simp only [State.lineStatus, List.append_nil],
    by simp only [List.length_append, State.statusHaul_length]; rfl, rfl⟩

/-- The line state and the halt cause, ahead of the run record in the haul's block. -/
def State.statusLine (s : State) : List Byte := be1 (lineCode s.haul.line) ++ be1 (haltCode s.haul.haltCause)

/-- The loads, the speeds, the holds and the outputs, after the run record in the haul's block. -/
def State.statusDrive (s : State) : List Byte :=
  be1 (s.haul.loadA.getD 0xFF) ++ be1 (s.haul.loadB.getD 0xFF)
    ++ be2 s.haul.vPerm ++ be2 s.haul.vSup ++ be2 s.haul.vDem ++ be1 s.holdBits
    ++ be1 (bits [s.haul.driveEnable, s.haul.driveDirHigh, s.haul.torqueReady]) ++ be2 s.haul.pwmDuty

theorem State.statusHaul_eq (s : State) : s.statusHaul = s.statusLine ++ (runBytes s.haul.run ++ s.statusDrive) := by
  simp only [State.statusHaul, State.statusLine, State.statusDrive, List.append_assoc]

theorem State.lineStatus_line (s : State) : BlockAt s.lineStatus s.statusLine 36 2 := by
  obtain ⟨pre, post, hd, hp, -⟩ := s.lineStatus_haul
  exact ⟨pre, runBytes s.haul.run ++ s.statusDrive ++ post,
    by rw [hd, State.statusHaul_eq]; simp only [List.append_assoc], hp, rfl⟩

theorem State.lineStatus_run (s : State) : BlockAt s.lineStatus (runBytes s.haul.run) 38 8 := by
  obtain ⟨pre, post, hd, hp, -⟩ := s.lineStatus_haul
  exact ⟨pre ++ s.statusLine, s.statusDrive ++ post,
    by rw [hd, State.statusHaul_eq]; simp only [List.append_assoc],
    by rw [List.length_append, hp]; rfl, runBytes_length _⟩

theorem State.lineStatus_drive (s : State) : BlockAt s.lineStatus s.statusDrive 46 12 := by
  obtain ⟨pre, post, hd, hp, -⟩ := s.lineStatus_haul
  exact ⟨pre ++ (s.statusLine ++ runBytes s.haul.run), post,
    by rw [hd, State.statusHaul_eq]; simp only [List.append_assoc],
    by simp only [List.length_append, hp, runBytes_length]; rfl, rfl⟩

/-! ### Bytes packed from flags -/

/-- Byte 31: rest, the slip condition and its timer. -/
theorem slipByte_eq (rest timer : Bool) (c : SlipCond) :
    bits [rest] + 2 * slipCode c + 8 * bits [timer]
      = bits [rest, decide (c = .slip), decide (c = .disagree), timer] := by
  cases rest <;> cases timer <;> cases c <;> rfl

/-- Byte 72: the hold, the latched track-brake cause, the reset wait and the four outputs and inputs. -/
theorem supervisionByte_eq (hold latched elapsed running safety service estop fault : Bool) :
    bits [hold, latched] + 4 * (if elapsed then 2 else if running then 1 else 0)
        + 16 * bits [safety, service, estop, fault]
      = bits [hold, latched, !elapsed && running, elapsed, safety, service, estop, fault] := by
  revert hold latched elapsed running safety service estop fault
  decide

/-- A track-brake cause is latched as the first or a further cause (R106, R109). -/
theorem State.trackBrakeLatched_eq (s : State) :
    s.trackBrakeLatched
      = allCauses.any fun c => c.trackBrake && (decide (s.osb.first = some c) || causeIn s.osb.further c) := by
  unfold State.trackBrakeLatched
  cases s.osb.first with
  | none => simp
  | some c => cases c <;> simp [allCauses, TripCause.trackBrake]

/-- Bytes 73 and 74: a car's stop record and its link. -/
theorem CarState.statusBits_eq (c : CarState) :
    c.statusBits
      = (match c.record with | some r => 1 + 2 * phaseCode r.phase | none => 0) + if c.live then 16 else 0 := by
  cases h : c.live <;> simp [CarState.statusBits, bits, h] <;> rfl

/-- Settles O42: each offset lies in one block of the record, and within its block each byte is read off. -/
theorem lineStatusRecordFollowsItsLayout : Obligations.LineStatusRecordFollowsItsLayout := by
  intro s channel stopByte latched
  refine ⟨_, s.lineStatus, rfl, rfl, (s.reply_touches _ _ _).1, s.lineStatus_length, ?_⟩
  have geo := s.lineStatus_geo
  have speed := s.lineStatus_speed
  have line := s.lineStatus_line
  have run (x : Option RunRecord) (h : s.haul.run = x) : BlockAt s.lineStatus (runBytes x) 38 8 :=
    h ▸ s.lineStatus_run
  have drive := s.lineStatus_drive
  have osb := s.lineStatus_osb
  have rest := s.lineStatus_rest
  have stop (c : CarState) : stopByte c = BitVec.ofNat 8 c.statusBits := 
    (congrArg (BitVec.ofNat 8) c.statusBits_eq).symm
  refine ⟨geo.byte 0 (by decide) rfl, geo.slice 1 5 (by decide), geo.slice 6 4 (by decide), geo.slice 10 4 (by decide),
    geo.byte 14 (by decide) rfl, speed.slice 0 7 (by decide), speed.slice 7 7 (by decide), speed.slice 14 2 (by decide),
    ?slipByte, speed.slice 17 4 (by decide), line.byte 0 (by decide) rfl, line.byte 1 (by decide) rfl,
    fun r h => ⟨(run (some r) h).byte 0 (by decide) rfl, (run (some r) h).slice 1 7 (by decide)⟩,
    fun h => (run none h).slice 0 8 (by decide), drive.byte 0 (by decide) rfl, drive.byte 1 (by decide) rfl,
    drive.slice 2 6 (by decide), drive.byte 8 (by decide) rfl, drive.byte 9 (by decide) rfl,
    drive.slice 10 2 (by decide), osb.slice 0 8 (by decide), osb.byte 8 (by decide) rfl, osb.byte 9 (by decide) rfl,
    osb.slice 10 4 (by decide), ?supervision, ?stopA, ?stopB, rest.byte 2 (by decide) rfl, rest.byte 3 (by decide) rfl,
    rest.slice 4 2 (by decide)⟩
  case slipByte =>
    rw [← slipByte_eq]
    exact speed.byte 16 (by decide) rfl
  case supervision =>
    simp only [latched]
    rw [← supervisionByte_eq, ← s.trackBrakeLatched_eq]
    exact osb.byte 14 (by decide) rfl
  case stopA =>
    rw [stop]
    exact rest.byte 0 (by decide) rfl
  case stopB =>
    rw [stop]
    exact rest.byte 1 (by decide) rfl

end Sys2Proof.Machine
end

-- ==== Taking trip causes ====
section
/-! What OSB's taking of a trip cause leaves, in each line state, and the slip and reset timers (R28, R100 to R105). -/

namespace Sys2Proof.Machine

/-! ### Attention and boarding -/

theorem State.hasAttention_raise (s : State) (c : Attention) : hasAttention (s.raise c) c = true := by
  cases c <;> simp [hasAttention, attentionMask, attentionBit]

/-- A cause that was raised stays raised where the attention set is kept. -/
theorem attentionKept.hasAttention {s t : State} (h : attentionKept s t) {c : Attention}
    (hc : hasAttention s c = true) : hasAttention t c = true := by
  have member := congrArg (fun m : BitVec 16 => m.getLsbD (attentionBit c)) h
  simp only [BitVec.getLsbD_or] at member
  simp only [Machine.hasAttention] at hc ⊢
  rw [← member, hc, Bool.true_or]

/-- Deriving the boarding states writes them and the broadcast flag, and nothing else (R156). -/
theorem State.deriveBoarding_eq (s : State) :
    ∃ b p, s.deriveBoarding = { s with adm := { s.adm with boarding := b, broadcastPending := p } } := by
  unfold State.deriveBoarding
  dsimp only
  split
  · exact ⟨s.adm.boarding, s.adm.broadcastPending, rfl⟩
  · exact ⟨_, true, rfl⟩

/-! ### The parts of an entry to TRIPPED -/

@[simp] theorem State.modRecord_haul (s : State) (c : Car) (f : StopRecord → StopRecord) :
    (s.modRecord c f).haul = s.haul := by
  unfold State.modRecord; split <;> simp
@[simp] theorem State.modRecord_osb (s : State) (c : Car) (f : StopRecord → StopRecord) :
    (s.modRecord c f).osb = s.osb := by
  unfold State.modRecord; split <;> simp
@[simp] theorem State.modRecord_spd (s : State) (c : Car) (f : StopRecord → StopRecord) :
    (s.modRecord c f).spd = s.spd := by
  unfold State.modRecord; split <;> simp
@[simp] theorem State.modRecord_lnk (s : State) (c : Car) (f : StopRecord → StopRecord) :
    (s.modRecord c f).lnk = s.lnk := by
  unfold State.modRecord; split <;> simp
@[simp] theorem State.modRecord_now (s : State) (c : Car) (f : StopRecord → StopRecord) :
    (s.modRecord c f).now = s.now := by
  unfold State.modRecord; split <;> simp

/-- A change of a car's record changes it where there is one. -/
theorem State.modRecord_record (s : State) (c : Car) (f : StopRecord → StopRecord) :
    (s.modRecord c f).record c = (s.record c).map f := by
  unfold State.modRecord
  split
  case h_1 r h => rw [State.setRecord_record, h]; rfl
  case h_2 h => rw [h]; rfl

/-- A change of a car's record leaves the other car's. -/
theorem State.modRecord_other (s : State) (c : Car) (f : StopRecord → StopRecord) :
    (s.modRecord c f).record (otherCar c) = s.record (otherCar c) := by
  unfold State.modRecord
  split
  · exact State.setRecord_other _ _ _
  · rfl

/-- Both records are marked (R107, R130). -/
theorem State.setSuspended_record (s : State) (b : Bool) (k : Car) :
    (s.setSuspended b).record k = (s.record k).map fun r => { r with suspended := b } := by
  unfold State.setSuspended
  cases k with
  | a => exact (State.modRecord_other _ .b _).trans (s.modRecord_record .a _)
  | b => rw [State.modRecord_record]; exact congrArg _ (s.modRecord_other .a _)

theorem State.dropHold_eq (s : State) (c : TripCause) :
    s.dropHold c = { s with osb := { s.osb with hold := s.osb.hold && !c.trackBrake } } := by
  unfold State.dropHold
  cases c.trackBrake <;> simp

theorem State.setLine_record (s : State) (l : LineState) (k : Car) : (s.setLine l).record k = s.record k := by
  cases l <;> cases k <;> rfl

/-- The state of an entry to TRIPPED but for the mark on the stop records and the attention cause TRIP. -/
def State.trippedCore (s : State) (c : TripCause) : State :=
  ((((((s.latch c).setLine .tripped).setPerm 0).stopTorque).dropHold c).beginWait)

theorem State.enterTripped_eq (s : State) (c : TripCause) :
    s.enterTripped c = ((s.trippedCore c).setSuspended true).raise .trip := rfl

@[simp] theorem State.enterTripped_haul (s : State) (c : TripCause) :
    (s.enterTripped c).haul
      = { s.haul with line := .tripped, driveEnable := false, vDem := 0, rampFrom := 0, vPerm := 0,
                      torqueDue := none } := by
  rw [State.enterTripped_eq, State.trippedCore, State.dropHold_eq]
  simp [State.setSuspended, State.setLine, State.setPerm, State.stopTorque, LineState.running,
    LineState.keepsEvacuation]

@[simp] theorem State.enterTripped_spd (s : State) (c : TripCause) :
    (s.enterTripped c).spd = { s.spd with rollback := false } := by
  rw [State.enterTripped_eq, State.trippedCore, State.dropHold_eq]
  simp [State.setSuspended, State.setLine, LineState.running, LineState.keepsEvacuation]

@[simp] theorem State.enterTripped_osb (s : State) (c : TripCause) :
    (s.enterTripped c).osb
      = { s.osb with
          first := some c, fromState := some s.haul.line, vTrip := s.spd.vMeas, further := 0,
          safetyReleased := false, serviceReleased := false, hold := s.osb.hold && !c.trackBrake,
          resetElapsed := false, resetDue := if s.atRest then some (s.now + sec (s.par 0x76)) else none } := by
  rw [State.enterTripped_eq, State.trippedCore, State.dropHold_eq]
  simp [State.setSuspended, State.setLine, State.latch, State.setPerm, State.stopTorque, State.beginWait,
    LineState.safetyReleased, LineState.serviceReleased, LineState.keepsEvacuation, State.atRest, State.raise,
    State.par]
  rfl

theorem State.enterTripped_record (s : State) (c : TripCause) (k : Car) :
    (s.enterTripped c).record k = (s.record k).map fun r => { r with suspended := true } := by
  have core : (s.trippedCore c).record k = s.record k := by
    rw [State.trippedCore, State.dropHold_eq]
    exact (s.latch c).setLine_record .tripped k
  rw [← core, ← State.setSuspended_record]
  rfl

theorem State.setLine_hasAttention (s : State) (l : LineState) : hasAttention (s.setLine l) .lineState = true :=
  State.hasAttention_raise _ _

/-- The entry to TRIPPED (R100 to R105, R130). -/
theorem State.enterTripped_entered (s : State) (c : TripCause) : enteredTripped c s (s.enterTripped c) := by
  have line : hasAttention (s.enterTripped c) .lineState = true :=
    (((((((State.setPerm_touches _ 0).trans (State.stopTorque_touches _)).trans (State.dropHold_touches _ c)).trans
      (State.beginWait_touches _)).trans (State.setSuspended_touches _ true)).trans
      (State.raise_touches _ .trip)).2).hasAttention ((s.latch c).setLine_hasAttention .tripped)
  refine ⟨?_, ?_, ?_, ?_, ?_, ?_, ?_, ?_, ?_, ?_, ?_, ?_, ?_, ?_, ?_, ?_, s.enterTripped_record c,
    State.hasAttention_raise _ _, line⟩
  all_goals simp

/-- The boarding states play no part in an entry to TRIPPED. -/
theorem enteredTripped.derive {c : TripCause} {s t : State} (h : enteredTripped c s t) :
    enteredTripped c s t.deriveBoarding := by
  obtain ⟨b, p, e⟩ := t.deriveBoarding_eq
  rw [e]
  exact h

/-! ### A cause in each line state -/

/-- The further causes after a cause is added (R100). -/
theorem causeIn_causeInsert (m : BitVec 16) (c d : TripCause) :
    causeIn (causeInsert m c) d = (causeIn m d || decide (d = c)) := by
  cases c <;> cases d <;> simp [causeIn, causeInsert, causeCode]

/-- PARKED ignores every cause but E-STOP (R100). -/
theorem State.takeCause_of_parked {s : State} (h : s.haul.line = .parked) {c : TripCause} (hc : c ≠ .estop) :
    s.takeCause c = s := by
  simp [State.takeCause, h, hc]

/-- TRIPPED adds a cause to the further ones unless it is latched already (R100). -/
theorem State.takeCause_of_tripped {s : State} (h : s.haul.line = .tripped) (c : TripCause) :
    s.takeCause c
      = if s.osb.first = some c ∨ causeIn s.osb.further c then s else (s.addFurther c).dropHold c := by
  simp [State.takeCause, h]

/-- Every other line state enters TRIPPED (R100). -/
theorem State.takeCause_of_service {s : State} (hp : s.haul.line ≠ .parked) (ht : s.haul.line ≠ .tripped)
    (c : TripCause) : s.takeCause c = s.enterTripped c := by
  unfold State.takeCause
  split <;> first | rfl | contradiction

/-- A cause taken in TRIPPED, with the boarding states derived (R100). -/
theorem State.takeCause_tookFurther {s : State} (h : s.haul.line = .tripped) (c : TripCause) :
    tookFurther c s (s.takeCause c).deriveBoarding := by
  rw [State.takeCause_of_tripped h]
  unfold tookFurther
  split
  · exact (s.deriveBoarding_touches.mono (by decide)).1
  · obtain ⟨b, p, e⟩ := State.deriveBoarding_eq ((s.addFurther c).dropHold c)
    have kept := (((s.addFurther_touches c).trans (State.dropHold_touches _ c)).trans
      (State.deriveBoarding_touches _)).mono (b := [.latch, .hold, .attention, .boarding, .result]) (by decide)
    have raised : hasAttention ((s.addFurther c).dropHold c) .trip = true :=
      (State.dropHold_touches _ c).2.hasAttention (State.hasAttention_raise _ _)
    refine ⟨kept.1, ?_⟩
    rw [e, State.dropHold_eq] at *
    exact ⟨rfl, rfl, rfl, causeIn_causeInsert _ c, rfl, raised⟩

/-! ### The slip and the reset timer -/

/-- The trip cause of a slip condition by its sign (R28). -/
theorem State.slipTimer_cause_ne_estop (b : Bool) : (if b then TripCause.slip else .disagree) ≠ .estop := by
  cases b <;> simp

/-- The slip timer has run out: the condition goes present with the recorded sign (R28). -/
def State.slipElapsed (s : State) : State :=
  { s with spd := { s.spd with slipDue := none, slip := if s.spd.slipPositive then .slip else .disagree } }

theorem execSlipTimerExpiry_of_due {s : State} {due : Nat} (h : s.spd.slipDue = some due) :
    execSlipTimerExpiry s
      = .next (((s.advance due).slipElapsed.takeCause (if s.spd.slipPositive then .slip else .disagree)).deriveBoarding)
    := by
  simp only [execSlipTimerExpiry, h]
  rfl

/-- Settles O31: the reset timer by its definition, the slip timer by what a trip cause leaves in each line state, and
each stopped timer by the row of an expiry. -/
theorem slipAndResetTimersExpireAndStoppedOnesDoNot : Obligations.SlipAndResetTimersExpireAndStoppedOnesDoNot := by
  refine ⟨fun s due h => ?reset, fun s due h => ?slip, fun s => ?stopped⟩
  case reset =>
    simp only [exec, execTripResetTime, h]
    rfl
  case slip =>
    intro cause u
    have taken : touches (tripParts ++ [.boarding]) u (u.takeCause cause).deriveBoarding :=
      (u.takeCause_touches cause).trans (State.deriveBoarding_touches _)
    obtain ⟨slip, due, -⟩ : _ ∧ _ ∧ _ := taken.1 .slip (by decide)
    refine ⟨_, execSlipTimerExpiry_of_due h, (taken.1 .time (by decide)).symm, slip.symm, due.symm,
      fun hl => ?_, fun hl => State.takeCause_tookFurther (s := u) hl cause, fun hp ht => ?_⟩
    · have parked := State.takeCause_of_parked (s := u) hl (State.slipTimer_cause_ne_estop s.spd.slipPositive)
      show keptBut [.boarding] u (u.takeCause cause).deriveBoarding
      rw [parked]
      exact u.deriveBoarding_touches.1
    · have service := State.takeCause_of_service (s := u) hp ht cause
      exact (service ▸ u.enterTripped_entered cause : enteredTripped cause u (u.takeCause cause)).derive
  case stopped =>
    refine ⟨fun h => ?_, fun h => ?_, fun h => ?_, fun h => ?_, fun h => ?_, fun h => ?_, fun h => ?_, fun c h => ?_,
      fun c h => ⟨?_, ?_, ?_, ?_⟩, fun h => ?_, fun h => ?_, fun id h => ?_⟩
    · simp only [exec, execTripResetTime, onExpiry, h]
    · simp only [exec, execStandstillTimeout, State.chan, onExpiry, h]
    · simp only [exec, execStandstillTimeout, State.chan, onExpiry, h]
    · simp only [exec, execRestConfirm, onExpiry, h]
    · simp only [exec, execSlipTimerExpiry, onExpiry, h]
    · simp only [exec, execMinuteBoundary, onExpiry, h]
    · simp only [exec, execTorqueReadyTimeout, onExpiry, h]
    · simp only [exec, execCarLinkTimeout, onExpiry, h]
    · simp only [exec, execDoorFault, onExpiry, h, Option.bind_none]
    · simp only [exec, execAlightTimeExpiry, State.phaseDue, onExpiry, h]
    · simp only [exec, execBoardTimeExpiry, State.phaseDue, onExpiry, h]
    · simp only [exec, execReopenTimeExpiry, State.phaseDue, onExpiry, h]
    · simp only [exec, execPollSlot, onExpiry, h]
    · simp only [exec, execResponseWindowExpiry, onExpiry, h]
    · simp only [exec, execClaimLapse, h]

end Sys2Proof.Machine
end

-- ==== Starting a run ====
section
/-! START RUN and RESUME: the checks in order, and the entry to STARTING with the run record (R69 to R73, R77, R87). -/

namespace Sys2Proof.Machine

/-! ### Checks made in order -/

/-- The answer of the first check that fails, and the effect of the command where every check passes. -/
def State.answerBy (s : State) (code : Byte) (checks : List Check) (passed : State) : State :=
  match refusedBy checks with
  | some (rc, d) => s.reply code rc d
  | none => passed

theorem State.answerBy_nil (s : State) (code : Byte) (passed : State) : s.answerBy code [] passed = passed := rfl

theorem State.answerBy_cons (s : State) (code : Byte) (b : Bool) (rc : ResultCode) (d : List Byte) (l : List Check)
    (passed : State) :
    s.answerBy code ((b, rc, d) :: l) passed = if b then s.reply code rc d else s.answerBy code l passed := by
  cases b <;> rfl

theorem State.answerBy_of_refused {s : State} {code : Byte} {checks : List Check} {passed : State} {rc : ResultCode}
    {d : List Byte} (h : refusedBy checks = some (rc, d)) : s.answerBy code checks passed = s.reply code rc d := by
  simp only [State.answerBy, h]

theorem State.answerBy_of_passed {s : State} {code : Byte} {checks : List Check} {passed : State}
    (h : refusedBy checks = none) : s.answerBy code checks passed = passed := by
  simp only [State.answerBy, h]

/-- A check of a command that passes all its checks. -/
theorem check_passed {checks : List Check} (h : refusedBy checks = none) {x : Check} (hx : x ∈ checks) :
    x.1 = false := by
  simp only [refusedBy, Option.map_eq_none_iff, List.find?_eq_none] at h
  simpa using h x hx

/-- The departure holds in the order of R68. -/
theorem State.answerBy_holds (s : State) (code : Byte) (passed : State) :
    s.answerBy code (holdChecks s) passed
      = match s.holds with
        | h :: _ => s.refuse code h
        | [] => passed := by
  simp only [holdChecks, State.holds, State.answerBy_cons, State.answerBy_nil]
  cases s.mon.w2.raised <;> cases s.mon.m2.raised <;> cases s.mon.overtension.raised <;> cases s.alarmHold <;> rfl

/-- START RUN makes its checks in the order of R69 and then enters STARTING. -/
theorem startRun_eq (a : RunArgs) (s : State) :
    startRun a s = s.answerBy 0x30 (startRunChecks a s)
      ((s.enterStarting (s.newRun a.target.toNat a.speed.toNat (if s.haul.line = .dwell then .dwell else .halted))).reply
        0x30 .ok []) := by
  simp only [startRun, startRunChecks, List.cons_append, List.nil_append, State.answerBy_cons, State.answerBy_holds]
  refine if_congr (by simp) rfl ?_
  refine if_congr (by simp) rfl ?_
  refine if_congr Iff.rfl rfl ?_
  refine if_congr (by simp) rfl ?_
  refine if_congr Iff.rfl rfl ?_
  refine if_congr (by cases s.inPhase .a .ready <;> cases s.inPhase .b .ready <;> simp) rfl ?_
  refine if_congr Iff.rfl rfl ?_
  refine if_congr Iff.rfl rfl ?_
  rfl

/-- RESUME makes its checks in the order of R77 and then enters STARTING on the run record it continues. -/
theorem resume_eq (s : State) :
    resume s = s.answerBy 0x32 (resumeChecks s)
      (match s.haul.run with
        | some q => (s.enterStarting (s.newRun q.target q.speed .halted)).reply 0x32 .ok []
        | none => s) := by
  simp only [resume, resumeChecks, List.cons_append, List.nil_append, State.answerBy_cons, State.answerBy_holds]
  refine if_congr (by simp) rfl ?_
  cases s.haul.run with
  | none => rfl
  | some q =>
    refine Eq.trans ?_ (if_neg (by simp)).symm
    refine if_congr (by simp) rfl ?_
    refine if_congr Iff.rfl rfl ?_
    refine if_congr Iff.rfl rfl ?_
    refine if_congr Iff.rfl rfl ?_
    refine if_congr Iff.rfl rfl ?_
    rfl

/-! ### The entry to STARTING from rest -/

/-- The boarding states as derived are those of the state (R156). -/
theorem State.deriveBoarding_boardingInv (s : State) : boardingInv s.deriveBoarding := by
  unfold State.deriveBoarding
  dsimp only
  split
  case isTrue h => exact h.symm
  case isFalse => rfl

/-- At rest both channels stand, no speed is measured, and v_meas is 0 (R23, R25, R26). -/
theorem speedInv.still {s : State} (h : speedInv s) (hr : s.atRest = true) :
    s.spd.rope.capture = .standstill ∧ s.spd.vMeas = 0 := by
  obtain ⟨rope, drive, meas, rest, -⟩ := h
  obtain ⟨hrope, hdrive⟩ := rest.2 (.inl hr)
  exact ⟨hrope, by rw [meas, rope.speed_eq_zero hrope, drive.speed_eq_zero hdrive, Nat.max_self]⟩

/-- In STARTING a comparison of v_meas 0 finds no cause and changes nothing (R92 to R94). -/
theorem State.compare_of_still {s : State} (hl : s.haul.line = .starting) (hv : s.spd.vMeas = 0) : s.compare = s := by
  have none : s.speedCauses = [] := by simp [State.speedCauses, hv]
  simp [State.compare, none, State.mustIntervene, State.mayRelease, hl]

/-- In STARTING with the line at rest the rollback test finds the condition absent, and the comparison changes nothing
(R29, R92). -/
theorem State.compareRollback_of_still {s : State} (hl : s.haul.line = .starting)
    (hc : s.spd.rope.capture = .standstill) (hv : s.spd.vMeas = 0) :
    s.compareRollback = { s with spd := { s.spd with rollback := false } } := by
  have absent : s.rollbackMet = false := by simp [State.rollbackMet, hc]
  rw [State.compareRollback, absent]
  exact State.compare_of_still (s := { s with spd := { s.spd with rollback := false } }) hl hv

/-- The state after an entry to STARTING from rest, but for the boarding states. -/
def State.runBegun (s : State) (r : RunRecord) : State :=
  let u := (s.started r).firstSpeeds
  { u with spd := { u.spd with rollback := false } }

theorem State.enterStarting_of_rest {s : State} (h : speedInv s) (hr : s.atRest = true) (r : RunRecord) :
    s.enterStarting r = (s.runBegun r).deriveBoarding := by
  obtain ⟨hc, hv⟩ := h.still hr
  rw [State.enterStarting_eq, State.compareRollback_of_still (s := (s.started r).firstSpeeds) rfl hc hv]
  rfl

/-- The run record's deceleration and gradient for each direction (R70, R72). -/
theorem State.newRun_fields (s : State) (target speed : Nat) (origin : Origin) :
    let r := s.newRun target speed origin
    let berth : Int := s.geo.active.berth target
    let descending : Car := if r.up then .b else .a
    let stop : Int := if r.up then s.geo.active.len - berth else berth
    let here := s.pos descending
    let load : Car → Option Nat := fun c => match c with | .a => s.haul.loadA | .b => s.haul.loadB
    let imbalance := (load descending).getD (s.par 0x6A) - (load (otherCar descending)).getD 0
    r.gMax = maxGradient (s.geo.active.under (min here stop - s.par 0x11) (max here stop + s.par 0x11))
      ∧ r.aEff = max (s.par 0x61) (s.par 0x60 - imbalance * s.par 0x62 * r.gMax / 10000) := by
  intro r berth descending stop here load imbalance
  cases hu : decide (s.posA ≤ (s.berth target : Int)) <;>
    simp only [r, berth, descending, stop, here, load, imbalance, State.newRun, hu] <;> exact ⟨rfl, rfl⟩

/-- An update of the drive direction and the torque-ready timer. -/
theorem driveUpdate_touches (s : State) (high : Bool) (due : Option Nat) :
    touches [.direction, .torque] s { s with haul := { s.haul with driveDirHigh := high, torqueDue := due } } := by
  refine ⟨fun p hp => ?_, by simp [attentionKept]⟩
  cases p <;> first
    | exact absurd (by decide) hp
    | exact rfl
    | simp [samePart, sameCarPart]

theorem rollbackUpdate_touches (s : State) (b : Bool) :
    touches [.rollback] s { s with spd := { s.spd with rollback := b } } := by
  refine ⟨fun p hp => ?_, by simp [attentionKept]⟩
  cases p <;> first
    | exact absurd (by decide) hp
    | exact rfl
    | simp [samePart, sameCarPart]

/-- What an entry to STARTING from rest may change. -/
theorem State.runBegun_touches (s : State) (r : RunRecord) :
    touches [.run, .line, .haltCause, .outputs, .speeds, .rollback, .evac, .torque, .direction, .thresholds, .attention]
      s (s.runBegun r) :=
  (((((((s.setRun_touches (some r)).trans (State.setLine_touches _ .starting)).trans
    (State.setHalt_touches _ .noCause)).trans (driveUpdate_touches _ _ _)).trans (State.setPerm_touches _ _)).trans
    (State.publishSup_touches _ _)).trans (rollbackUpdate_touches _ false)).mono (by decide)

/-- A threshold as R91 writes it. -/
theorem threshold_eq (v factor offset : Nat) : threshold v factor offset = min 13000 (v + v * factor / 256 + offset) :=
  rfl

/-- The permitted speed's terms are read from the parameters, the position, the restrictions, the monitor, the line state
and the run record. -/
theorem State.permittedTerms_congr {s t : State} (hp : t.params = s.params) (hg : t.geo = s.geo) (ht : t.tsr = s.tsr)
    (hm : t.mon = s.mon) (hl : t.haul.line = s.haul.line) (hr : t.haul.run = s.haul.run) (r : RunRecord) :
    t.permittedTerms r = s.permittedTerms r := by
  obtain ⟨_, _, _, _, _, _, ⟨⟩⟩ := s
  obtain ⟨_, _, _, _, _, _, ⟨⟩⟩ := t
  subst hp hg ht hm hl hr
  rfl

/-- A parameter is read from the store alone. -/
theorem State.par_congr {s t : State} (h : t.params = s.params) (n : Nat) : t.par n = s.par n := by
  simp only [State.par, h]

@[simp] theorem State.started_params (s : State) (r : RunRecord) : (s.started r).params = s.params := by
  simp [State.started]
@[simp] theorem State.started_line (s : State) (r : RunRecord) : (s.started r).haul.line = .starting := by
  simp [State.started]
@[simp] theorem State.started_run (s : State) (r : RunRecord) : (s.started r).haul.run = some r := by
  simp [State.started, State.setHalt, State.setLine, LineState.keepsEvacuation]

/-- The first v_perm of a run is the least of its terms (R81, R87). -/
theorem State.started_permitted (s : State) (r : RunRecord) :
    (s.started r).permitted = leastSpeed ((s.started r).permittedTerms r) := by
  simp only [State.permitted, State.running, State.started_line, State.started_run, LineState.running, if_true]

/-- The entry to STARTING with a new run record from rest (R64, R70, R72, R73, R87, R91). -/
theorem State.enterStarting_entered {s : State} (h : speedInv s) (hr : s.atRest = true) (target speed : Nat)
    (origin : Origin) (code : Byte) :
    let r := s.newRun target speed origin
    enteredStarting s ((s.enterStarting r).reply code .ok []) r := by
  intro r
  obtain ⟨b, p, e⟩ := (s.runBegun r).deriveBoarding_eq
  obtain ⟨gMax, aEff⟩ := s.newRun_fields target speed origin
  have kept : keptBut [.run, .line, .haltCause, .outputs, .speeds, .rollback, .evac, .torque, .direction, .thresholds,
      .boarding, .attention, .result] s ((s.runBegun r).deriveBoarding.reply code .ok []) := fun q hq =>
    (((s.runBegun_touches r).trans (State.deriveBoarding_touches _)).trans (State.reply_touches _ code .ok [])).1 q
      (by revert hq; cases q <;> decide)
  have vPerm := s.started_permitted r
  have par (v n : Nat) : ((s.started r).setPerm v).par n = s.par n := State.par_congr (by simp) n
  rw [State.enterStarting_of_rest h hr]
  rw [e] at kept ⊢
  unfold State.runBegun State.firstSpeeds at kept ⊢
  generalize (s.started r).permitted = v at vPerm kept ⊢
  refine ⟨rfl, gMax, aEff, rfl, rfl, rfl, rfl, rfl, rfl, rfl, rfl, rfl, vPerm.trans (congrArg leastSpeed ?_), rfl, rfl,
    (congrArg₂ (threshold v) (par v 0x70) (par v 0x71)).trans (threshold_eq v _ _),
    (congrArg₂ (threshold v) (par v 0x72) (par v 0x73)).trans (threshold_eq v _ _), par v 0x74, rfl, rfl, rfl, rfl, rfl,
    rfl, kept⟩
  exact (State.permittedTerms_congr (by simp) (by simp) (by simp) (by simp)
    (by simp [State.reply, State.publishSup, State.setPerm]) (by simp [State.reply, State.publishSup, State.setPerm])
    r).symm

theorem State.enterStarting_boardingInv (s : State) (r : RunRecord) (code : Byte) :
    boardingInv ((s.enterStarting r).reply code .ok []) :=
  State.deriveBoarding_boardingInv _

/-- Settles O27: each command is its checks in order and then the entry to STARTING; the line is at rest there, so that
the comparison and the rollback test made at the entry find nothing. -/
theorem startRunAndResumeEnterStarting : Obligations.StartRunAndResumeEnterStarting := by
  intro a s
  refine ⟨fun rc d h => ?_, fun h inv => ?_, fun rc d h => ?_, fun q hq h inv => ?_⟩
  · exact ⟨_, congrArg Host.Outcome.next ((startRun_eq a s).trans (State.answerBy_of_refused h)), rfl,
      (s.reply_touches _ _ _).1⟩
  · have rest : s.atRest = true := by
      simpa using check_passed h (x := (!s.atRest, .refused, [0x01])) (by simp [startRunChecks])
    exact ⟨_, _, congrArg Host.Outcome.next ((startRun_eq a s).trans (State.answerBy_of_passed h)), rfl,
      s.enterStarting_boardingInv _ _, State.enterStarting_entered inv rest _ _ _ _, rfl, rfl, rfl⟩
  · exact ⟨_, congrArg Host.Outcome.next ((resume_eq s).trans (State.answerBy_of_refused h)), rfl,
      (s.reply_touches _ _ _).1⟩
  · have rest : s.atRest = true := by
      simpa using check_passed h (x := (!s.atRest, .refused, [0x01])) (by simp [resumeChecks])
    have passed := (resume_eq s).trans (State.answerBy_of_passed h)
    rw [hq] at passed
    exact ⟨_, _, congrArg Host.Outcome.next passed, rfl, s.enterStarting_boardingInv _ _,
      State.enterStarting_entered inv rest _ _ _ _, rfl, rfl, rfl⟩

end Sys2Proof.Machine
end

-- ==== The comparison of the measured speed ====
section
/-! What OSB's comparison leaves, alone and together with a trip cause of another block (R92 to R96), and what the slip
test leaves (R27, R28). -/

namespace Sys2Proof.Machine

/-! ### Causes taken one after the other -/

/-- In TRIPPED a cause that is not latched yet joins the further causes (R100, R104). -/
theorem State.takeCause_of_new {s : State} (hl : s.haul.line = .tripped) {c : TripCause}
    (hf : s.osb.first ≠ some c) (hm : causeIn s.osb.further c = false) :
    (s.takeCause c).haul = s.haul ∧ (s.takeCause c).spd = s.spd
      ∧ (s.takeCause c).osb
          = { s.osb with further := causeInsert s.osb.further c, hold := s.osb.hold && !c.trackBrake } := by
  rw [State.takeCause_of_tripped hl, if_neg (by simp [hf, hm]), State.dropHold_eq]
  exact ⟨rfl, rfl, rfl⟩

/-- Causes taken in TRIPPED, none of them latched yet (R100, R104). -/
theorem State.takeAll_of_tripped (cs : List TripCause) {s : State} (hl : s.haul.line = .tripped) (hn : cs.Nodup)
    (hnew : ∀ c ∈ cs, s.osb.first ≠ some c ∧ causeIn s.osb.further c = false) :
    (s.takeAll cs).haul = s.haul ∧ (s.takeAll cs).spd = s.spd
      ∧ ∃ m, (s.takeAll cs).osb = { s.osb with further := m, hold := s.osb.hold && cs.all fun c => !c.trackBrake }
        ∧ ∀ d, causeIn m d = (causeIn s.osb.further d || decide (d ∈ cs)) := by
  induction cs generalizing s with
  | nil => exact ⟨rfl, rfl, s.osb.further, by simp [State.takeAll], by simp⟩
  | cons c cs ih =>
    obtain ⟨hc, hn⟩ := List.nodup_cons.1 hn
    obtain ⟨newFirst, newFurther⟩ := hnew c (by simp)
    obtain ⟨haul, spd, osb⟩ := State.takeCause_of_new hl newFirst newFurther
    obtain ⟨haul', spd', m, osb', member⟩ := ih (s := s.takeCause c) (by rw [haul, hl]) hn fun d hd => by
      obtain ⟨dFirst, dFurther⟩ := hnew d (by simp [hd])
      have : d ≠ c := fun e => hc (e ▸ hd)
      rw [osb]
      exact ⟨dFirst, by simp [causeIn_causeInsert, dFurther, this]⟩
    have step : s.takeAll (c :: cs) = (s.takeCause c).takeAll cs := rfl
    rw [step]
    refine ⟨haul'.trans haul, spd'.trans spd, m, ?_, fun d => ?_⟩
    · rw [osb', osb]
      simp [Bool.and_assoc]
    · rw [member d, osb, causeIn_causeInsert]
      by_cases hd : d = c <;> simp [hd]

/-- The line states in which a cause enters TRIPPED: all but PARKED and TRIPPED (R100). -/
def LineState.inService (l : LineState) : Prop := l ≠ .parked ∧ l ≠ .tripped

@[simp] theorem LineState.inService_iff (l : LineState) : l.inService ↔ l ≠ .parked ∧ l ≠ .tripped := Iff.rfl

/-- Causes taken in service: the first enters TRIPPED and each other one is a further cause (R100, R101, R104). -/
theorem State.takeAll_of_service {s : State} (hl : s.haul.line.inService) {c : TripCause} {cs : List TripCause}
    (hn : (c :: cs).Nodup) :
    (s.takeAll (c :: cs)).haul.line = .tripped ∧ (s.takeAll (c :: cs)).spd.rollback = false
      ∧ (s.takeAll (c :: cs)).osb.first = some c ∧ (s.takeAll (c :: cs)).osb.fromState = some s.haul.line
      ∧ (s.takeAll (c :: cs)).osb.vTrip = s.spd.vMeas
      ∧ (∀ d, causeIn (s.takeAll (c :: cs)).osb.further d = decide (d ∈ cs))
      ∧ (s.takeAll (c :: cs)).osb.hold = (s.osb.hold && (c :: cs).all fun c => !c.trackBrake) := by
  obtain ⟨hc, hn⟩ := List.nodup_cons.1 hn
  have none (d : TripCause) : causeIn 0#16 d = false := by simp [causeIn]
  have enter : s.takeAll (c :: cs) = (s.enterTripped c).takeAll cs := by
    rw [← State.takeCause_of_service hl.1 hl.2 c]
    rfl
  obtain ⟨haul, spd, m, osb, member⟩ := State.takeAll_of_tripped cs (s := s.enterTripped c) (by simp) hn fun d hd =>
    ⟨by simpa using fun e : c = d => hc (e ▸ hd), by simp [none]⟩
  rw [enter, haul, spd, osb]
  refine ⟨by simp, by simp, by simp, by simp, by simp, fun d => ?_, by simp [Bool.and_assoc]⟩
  simpa [none] using member d

/-- The latch after causes taken in service holds exactly them (R100). -/
theorem State.takeAll_latch {s : State} (hl : s.haul.line.inService) {c : TripCause} {cs : List TripCause}
    (hn : (c :: cs).Nodup) (d : TripCause) :
    ((s.takeAll (c :: cs)).osb.first = some d ∨ causeIn (s.takeAll (c :: cs)).osb.further d = true) ↔ d ∈ c :: cs := by
  obtain ⟨-, -, first, -, -, further, -⟩ := State.takeAll_of_service hl hn
  rw [first, further d]
  simp [eq_comm]

/-! ### What a comparison does -/

/-- A comparison takes the trip causes it finds, or else enters INTERVENING, or else releases it, or changes nothing
(R92 to R94). -/
theorem State.compare_cases (s : State) :
    (s.speedCauses ≠ [] ∧ s.compare = s.takeAll s.speedCauses)
      ∨ (s.speedCauses = [] ∧ s.mustIntervene = true ∧ s.compare = s.intervene)
      ∨ (s.speedCauses = [] ∧ s.mustIntervene = false ∧ s.mayRelease = true ∧ s.compare = s.releaseIntervention)
      ∨ (s.speedCauses = [] ∧ s.mustIntervene = false ∧ s.mayRelease = false ∧ s.compare = s) := by
  unfold State.compare
  cases h : s.speedCauses with
  | cons c cs => simp
  | nil => cases hi : s.mustIntervene <;> cases hr : s.mayRelease <;> simp

theorem State.mustIntervene_iff (s : State) :
    s.mustIntervene = true ↔ s.haul.line = .moving ∧ s.osb.t1 < s.spd.vMeas := by
  simp [State.mustIntervene]

theorem State.mayRelease_iff (s : State) :
    s.mayRelease = true ↔ s.haul.line = .intervening ∧ s.spd.vMeas + s.par 0x75 ≤ s.haul.vPerm := by
  simp [State.mayRelease]

/-- The four states in which OSB compares (R92). -/
theorem LineState.compared_iff (l : LineState) : l.compared = true ↔ comparesIn l := by
  cases l <;> simp [LineState.compared, comparesIn]

theorem comparesIn.inService {l : LineState} (h : comparesIn l) : l.inService := by
  rcases h with rfl | rfl | rfl | rfl <;> simp

/-- Outside the compared states a comparison finds no cause (R92). -/
theorem State.speedCauses_of_not_compared {s : State} (h : ¬comparesIn s.haul.line) : s.speedCauses = [] := by
  rw [← LineState.compared_iff] at h
  simp [State.speedCauses, h]

/-- The causes of a comparison in the compared states (R92). -/
theorem State.mem_speedCauses {s : State} (h : comparesIn s.haul.line) (d : TripCause) :
    d ∈ s.speedCauses ↔ (d = .absOverspeed ∧ s.osb.vAbs < s.spd.vMeas) ∨ (d = .overspeed ∧ s.osb.t2 < s.spd.vMeas) := by
  rw [← LineState.compared_iff] at h
  simp only [State.speedCauses, h, if_true, List.mem_append]
  split <;> split <;> simp [*]

theorem State.speedCauses_of_abs {s : State} (h : comparesIn s.haul.line) (hv : s.osb.vAbs < s.spd.vMeas) :
    s.speedCauses = .absOverspeed :: (if s.osb.t2 < s.spd.vMeas then [.overspeed] else []) := by
  simp [State.speedCauses, (LineState.compared_iff _).2 h, hv]

theorem State.speedCauses_of_over {s : State} (h : comparesIn s.haul.line) (hv : s.spd.vMeas ≤ s.osb.vAbs)
    (ht : s.osb.t2 < s.spd.vMeas) : s.speedCauses = [.overspeed] := by
  simp [State.speedCauses, (LineState.compared_iff _).2 h, ht, Nat.not_lt.2 hv]

theorem State.speedCauses_of_passes {s : State} (hv : s.spd.vMeas ≤ s.osb.vAbs) (ht : s.spd.vMeas ≤ s.osb.t2) :
    s.speedCauses = [] := by
  simp [State.speedCauses, Nat.not_lt.2 hv, Nat.not_lt.2 ht]

theorem State.speedCauses_nodup (s : State) : s.speedCauses.Nodup := by
  unfold State.speedCauses
  split
  · split <;> split <;> simp
  · simp

/-- A cause that a comparison finds is an overspeed in a compared state (R92). -/
theorem State.comparesIn_of_speedCauses {s : State} (h : s.speedCauses ≠ []) : comparesIn s.haul.line := by
  by_contra hn
  exact h (State.speedCauses_of_not_compared hn)

theorem State.intervene_line (s : State) : s.intervene.haul.line = .intervening := rfl
theorem State.intervene_haul (s : State) : s.intervene.haul = (s.setLine .intervening).haul := rfl
theorem State.intervene_interventions (s : State) :
    s.intervene.osb.interventions = min 65535 (s.osb.interventions + 1) := rfl
theorem State.releaseIntervention_line (s : State) : s.releaseIntervention.haul.line = .moving := rfl
theorem State.releaseIntervention_osb (s : State) : s.releaseIntervention.osb = (s.setLine .moving).osb := rfl

/-- What a comparison leaves, by the line state in which it is made (R92 to R94). -/
theorem State.compare_leaves (s : State) :
    comparisonLeaves s.haul.line s.spd.vMeas s.haul.vPerm s.osb s s.compare := by
  have passed (h : s.spd.vMeas ≤ s.osb.vAbs ∧ s.spd.vMeas ≤ s.osb.t2) := State.speedCauses_of_passes h.1 h.2
  have taken (h : s.speedCauses ≠ []) : s.compare = s.takeAll s.speedCauses := by
    rcases s.compare_cases with ⟨-, e⟩ | ⟨n, -⟩ | ⟨n, -⟩ | ⟨n, -⟩
    · exact e
    all_goals exact absurd n h
  have intervened (h : s.speedCauses = []) (hi : s.mustIntervene = true) : s.compare = s.intervene := by
    simp [State.compare, h, hi]
  have released (h : s.speedCauses = []) (hi : s.mustIntervene = false) (hr : s.mayRelease = true) :
      s.compare = s.releaseIntervention := by
    simp [State.compare, h, hi, hr]
  have same (h : s.speedCauses = []) (hi : s.mustIntervene = false) (hr : s.mayRelease = false) : s.compare = s := by
    simp [State.compare, h, hi, hr]
  refine ⟨fun hc hv => ?_, fun hc hv ht => ?_, fun hl hp hi => ?_, fun hl hp hi => ?_, fun hl hp hr => ?_,
    fun hl hp hr => ?_, fun hl hp => ?_, fun hn => ?_⟩
  · have causes := State.speedCauses_of_abs hc hv
    have nodup := causes ▸ s.speedCauses_nodup
    obtain ⟨line, -, first, from_, vTrip, further, hold⟩ := State.takeAll_of_service hc.inService nodup
    rw [taken (by simp [causes]), causes]
    refine ⟨⟨line, first, vTrip, from_⟩, by simp [hold, TripCause.trackBrake], fun d => ?_⟩
    rw [further d]
    split <;> simp [*]
  · have causes := State.speedCauses_of_over hc hv ht
    rw [taken (by simp [causes]), causes]
    show _ ∧ (s.takeCause .overspeed).osb.hold = _ ∧ (s.takeCause .overspeed).osb.further = 0
    rw [State.takeAll, List.foldl_cons, List.foldl_nil, State.takeCause_of_service hc.inService.1 hc.inService.2]
    simp [TripCause.trackBrake]
  · rw [intervened (passed hp) (s.mustIntervene_iff.2 ⟨hl, hi⟩)]
    refine ⟨rfl, rfl, rfl, rfl, rfl, rfl, State.hasAttention_raise _ _, ?_⟩
    exact (State.raise_touches _ .intervention).2.hasAttention (s.setLine_hasAttention .intervening)
  · rw [same (passed hp) (by simp [State.mustIntervene]; omega) (by simp [State.mayRelease, hl])]
    exact ⟨hl, rfl⟩
  · rw [released (passed hp) (by simp [State.mustIntervene, hl]) (s.mayRelease_iff.2 ⟨hl, hr⟩)]
    refine ⟨rfl, rfl, rfl, rfl, rfl, s.setLine_hasAttention .moving⟩
  · rw [same (passed hp) (by simp [State.mustIntervene, hl]) (by simp [State.mayRelease]; omega)]
    exact ⟨hl, rfl⟩
  · rw [same (passed hp) (by rcases hl with hl | hl <;> simp [State.mustIntervene, hl])
      (by rcases hl with hl | hl <;> simp [State.mayRelease, hl])]
    exact ⟨rfl, rfl⟩
  · rw [same (State.speedCauses_of_not_compared hn) (Bool.eq_false_iff.2 fun h => ?_)
      (Bool.eq_false_iff.2 fun h => ?_)]
    · exact hn (.inr (.inl (s.mustIntervene_iff.1 h).1))
    · exact hn (.inr (.inr (.inl (s.mayRelease_iff.1 h).1)))

/-- What a comparison leaves is read from the limits, the parameters, the haul, the latch and the attention set. -/
theorem comparisonLeaves.congr {l : LineState} {v p : Nat} {o : OsbState} {s s' t t' : State}
    (h : comparisonLeaves l v p o s t) (hs : s'.osb = s.osb) (hp : s'.params = s.params) (hh : t'.haul = t.haul)
    (ho : t'.osb = t.osb) (ha : t'.lnk = t.lnk) : comparisonLeaves l v p o s' t' := by
  simpa only [comparisonLeaves, hasAttention, State.par, hs, hp, hh, ho, ha] using h

/-- In MOVING a comparison that does not leave the sub-phase leaves v_dem (R86, R93). -/
theorem State.compare_vDem {s : State} (hl : s.haul.line = .moving) (hc : s.compare.haul.line = .moving) :
    s.compare.haul.vDem = s.haul.vDem := by
  rcases s.compare_cases with ⟨h, e⟩ | ⟨-, -, e⟩ | ⟨-, -, h, -⟩ | ⟨-, -, -, e⟩
  · obtain ⟨c, cs, causes⟩ := List.exists_cons_of_ne_nil h
    have nodup := causes ▸ s.speedCauses_nodup
    obtain ⟨line, -⟩ := State.takeAll_of_service (s := s) (by simp [hl]) nodup
    rw [e, causes, line] at hc
    cases hc
  · rw [e, State.intervene_line] at hc
    cases hc
  · rw [State.mayRelease_iff, hl] at h
    cases h.1
  · rw [e]

/-- A comparison that does not end in TRIPPED leaves the rollback condition (R29). -/
theorem State.compare_rollback {s : State} (h : s.compare.haul.line ≠ .tripped) :
    s.compare.spd.rollback = s.spd.rollback := by
  rcases s.compare_cases with ⟨n, e⟩ | ⟨-, -, e⟩ | ⟨-, -, -, e⟩ | ⟨-, -, -, e⟩
  · obtain ⟨c, cs, causes⟩ := List.exists_cons_of_ne_nil n
    have nodup := causes ▸ s.speedCauses_nodup
    obtain ⟨line, -⟩ := State.takeAll_of_service (State.comparesIn_of_speedCauses n).inService nodup
    rw [e, causes] at h
    exact absurd line h
  · rw [e]
    exact Bool.true_and _
  · rw [e]
    exact Bool.true_and _
  · rw [e]

/-! ### A comparison with another cause -/

/-- A comparison that finds no cause leaves the line in service, with v_meas and the hold as they are. -/
theorem State.compare_of_no_cause {s : State} (hl : comparesIn s.haul.line) (h : s.speedCauses = []) :
    s.compare.haul.line.inService ∧ s.compare.spd.vMeas = s.spd.vMeas ∧ s.compare.osb.hold = s.osb.hold := by
  have meas := ((s.compare_touches).1 .speed (by decide)).symm
  rcases s.compare_cases with ⟨n, -⟩ | ⟨-, -, e⟩ | ⟨-, -, -, e⟩ | ⟨-, -, -, e⟩
  · exact absurd h n
  · exact ⟨by simp [e, State.intervene_line], meas, by rw [e]; rfl⟩
  · exact ⟨by simp [e, State.releaseIntervention_line], meas, by rw [e]; rfl⟩
  · exact ⟨by rw [e]; exact hl.inService, meas, by rw [e]⟩

/-- ROLLBACK and the causes of a comparison that arrive together are all in the latch, in either order (R96, R100,
R104). -/
theorem State.compareWith_rollback {s : State} (hl : comparesIn s.haul.line) :
    tookTogether .rollback s.spd.vMeas s.osb s (s.compareWith .rollback) := by
  have member := State.mem_speedCauses hl
  have notIn : TripCause.rollback ∉ s.speedCauses := by rw [member]; simp
  have brakes : (s.speedCauses.all fun c => !c.trackBrake) = decide (s.spd.vMeas ≤ s.osb.vAbs) := by
    rw [Bool.eq_iff_iff, List.all_eq_true, decide_eq_true_iff]
    refine ⟨fun h => Nat.not_lt.1 fun k => ?_, fun h c hc => ?_⟩
    · exact absurd (h .absOverspeed ((member _).2 (.inl ⟨rfl, k⟩))) (by simp [TripCause.trackBrake])
    · rcases (member c).1 hc with ⟨-, k⟩ | ⟨rfl, -⟩
      · exact absurd h (Nat.not_le.2 k)
      · rfl
  have alone (u : State) (hu : u.haul.line.inService) (hv : u.spd.vMeas = s.spd.vMeas) (hh : u.osb.hold = s.osb.hold)
      (none : s.speedCauses = []) : tookTogether .rollback s.spd.vMeas s.osb s (u.takeCause .rollback) := by
    have first (d : TripCause) : (some TripCause.rollback = some d ∨ causeIn 0 d = true) ↔ d = .rollback := by
      simp [causeIn, eq_comm]
    rw [none] at member brakes
    rw [State.takeCause_of_service hu.1 hu.2]
    refine ⟨by simp, by simpa using hv, fun d => ?_, fun _ _ => by simp, ?_⟩
    · rw [← member d]
      simpa using first d
    · rw [← brakes]
      simp [hh]
  unfold State.compareWith
  split
  case isFalse acts =>
    have none : s.speedCauses = [] := by
      simp only [State.compareActs, Bool.or_eq_true, not_or] at acts
      simpa using acts.1.1
    exact alone s hl.inService rfl rfl none
  case isTrue acts =>
    split
    · have nodup : (TripCause.rollback :: s.speedCauses).Nodup := List.nodup_cons.2 ⟨notIn, s.speedCauses_nodup⟩
      obtain ⟨line, -, first, -, vTrip, -, hold⟩ := State.takeAll_of_service (s := s.bumpChoice) hl.inService nodup
      refine ⟨line, vTrip, fun d => ?_, fun hv ht => ?_, ?_⟩
      · rw [State.takeAll_latch (s := s.bumpChoice) hl.inService nodup d, List.mem_cons, member d]
      · rw [State.speedCauses_of_passes hv ht]
        have enter := State.takeCause_of_service (s := s.bumpChoice) hl.inService.1 hl.inService.2 .rollback
        show (s.bumpChoice.takeCause .rollback).osb.first = _ ∧ (s.bumpChoice.takeCause .rollback).osb.further = 0
        rw [enter]
        simp
      · rw [hold, List.all_cons, brakes]
        exact (Bool.and_assoc _ _ _).symm
    · cases h : s.speedCauses with
      | nil =>
        obtain ⟨line, meas, hold⟩ := State.compare_of_no_cause (s := s.bumpChoice) hl h
        exact alone s.bumpChoice.compare line meas hold h
      | cons c cs =>
        have taken : (s.bumpChoice.compare).takeCause .rollback = s.bumpChoice.takeAll (c :: (cs ++ [.rollback])) := by
          have causes : s.bumpChoice.speedCauses = c :: cs := h
          rw [State.compare, causes]
          simp [State.takeAll]
        have nodup : (c :: (cs ++ [TripCause.rollback])).Nodup := by
          rw [← List.cons_append, ← h]
          exact List.nodup_append.2 ⟨s.speedCauses_nodup, by simp,
            fun a ha b hb e => notIn (by rwa [← List.mem_singleton.1 hb, ← e])⟩
        obtain ⟨line, -, -, -, vTrip, -, hold⟩ := State.takeAll_of_service (s := s.bumpChoice) hl.inService nodup
        rw [taken]
        refine ⟨line, vTrip, fun d => ?_, fun hv ht => ?_, ?_⟩
        · rw [State.takeAll_latch (s := s.bumpChoice) hl.inService nodup d, ← List.cons_append, ← h, List.mem_append,
            member d]
          simp [or_comm]
        · rw [State.speedCauses_of_passes hv ht] at h
          cases h
        · rw [hold, ← List.cons_append, ← h, List.all_append, brakes]
          simp [TripCause.trackBrake]

theorem tookTogether.congr {c : TripCause} {v : Nat} {o : OsbState} {s s' t t' : State} (h : tookTogether c v o s t)
    (hs : s'.osb = s.osb) (hh : t'.haul = t.haul) (ho : t'.osb = t.osb) : tookTogether c v o s' t' := by
  simpa only [tookTogether, hs, hh, ho] using h

/-! ### The rollback condition is absent outside RUNNING -/

/-- The rollback condition is present in RUNNING alone (R29). -/
def rollbackRuns (s : State) : Prop := s.spd.rollback = true → s.haul.line.running = true

theorem State.setLine_rollbackRuns (s : State) (l : LineState) : rollbackRuns (s.setLine l) :=
  fun h => (Bool.and_eq_true_iff.1 h).1

theorem rollbackRuns.takeCause {s : State} (h : rollbackRuns s) (c : TripCause) : rollbackRuns (s.takeCause c) := by
  unfold State.takeCause
  split
  · split; exacts [h, h]
  · split
    · exact h
    · rw [State.dropHold_eq]; exact h
  all_goals exact fun k => by simp at k

theorem rollbackRuns.takeAll {s : State} (h : rollbackRuns s) (cs : List TripCause) :
    rollbackRuns (s.takeAll cs) := by
  unfold State.takeAll
  induction cs generalizing s with
  | nil => exact h
  | cons c cs ih => exact ih (h.takeCause c)

theorem rollbackRuns.compare {s : State} (h : rollbackRuns s) : rollbackRuns s.compare := by
  rcases s.compare_cases with ⟨-, e⟩ | ⟨-, -, e⟩ | ⟨-, -, -, e⟩ | ⟨-, -, -, e⟩ <;> rw [e]
  · exact h.takeAll _
  · exact s.setLine_rollbackRuns .intervening
  · exact s.setLine_rollbackRuns .moving
  · exact h

theorem rollbackRuns.compareWith {s : State} (h : rollbackRuns s) (c : TripCause) :
    rollbackRuns (s.compareWith c) := by
  unfold State.compareWith
  split
  · split
    · exact rollbackRuns.takeAll (s := s.bumpChoice) h _
    · exact (rollbackRuns.compare (s := s.bumpChoice) h).takeCause c
  · exact h.takeCause c

theorem rollbackRuns.absent_of_tripped {s : State} (h : rollbackRuns s) (hl : s.haul.line = .tripped) :
    s.spd.rollback = false :=
  Bool.eq_false_iff.2 fun k => by simpa [hl, LineState.running] using h k

/-! ### The slip test -/

/-- What the slip test leaves (R27, R28). -/
theorem State.slipTest_slipTested (s : State) : slipTested s s.slipTest := by
  have channels := (s.slipTest_touches).1
  have rope : s.spd.rope = s.slipTest.spd.rope := channels .rope (by decide)
  have drive : s.spd.drive = s.slipTest.spd.drive := channels .drive (by decide)
  have now : s.now = s.slipTest.now := channels .time (by decide)
  unfold slipTested
  rw [← rope, ← drive, ← now]
  unfold State.slipTest SpdState.slipDiff
  dsimp only
  split
  · exact ⟨rfl, rfl⟩
  · generalize decide (0 < (s.spd.drive.speed : Int) - s.spd.rope.speed) = positive
    cases hs : s.spd.slip <;> cases hd : s.spd.slipDue <;> by_cases hp : s.spd.slipPositive = positive <;>
      simp [hp, hs, hd, samePart]

/-- What the slip test leaves is read from the condition, its timer, the channel speeds, the time and the parameters. -/
theorem slipTested.congr {s s' t t' : State} (h : slipTested s t) (hs : samePart .slip s' s)
    (hp : s'.params = s.params) (ht : samePart .slip t t') (hr : t'.spd.rope = t.spd.rope)
    (hd : t'.spd.drive = t.spd.drive) (hn : t'.now = t.now) : slipTested s' t' := by
  obtain ⟨slip, due, positive⟩ : _ ∧ _ ∧ _ := hs
  obtain ⟨slip', due', positive'⟩ : _ ∧ _ ∧ _ := ht
  have par (n : Nat) : s'.par n = s.par n := State.par_congr hp n
  unfold slipTested at h ⊢
  simp only [samePart, par, slip, due, positive, ← slip', ← due', ← positive', hr, hd, hn]
  exact h

end Sys2Proof.Machine
end

-- ==== A publication by a counting edge ====
section
/-! A speed published by a counting edge: v_meas, the slip test, the rollback test and the comparison (R22, R25, R27 to
R29, R92 to R96). -/

namespace Sys2Proof.Machine

/-! ### v_sup stands through trips and comparisons -/

theorem State.takeCause_vSup (s : State) (c : TripCause) : (s.takeCause c).haul.vSup = s.haul.vSup := by
  unfold State.takeCause
  split
  · split <;> rfl
  · split
    · rfl
    · rw [State.dropHold_eq]; rfl
  all_goals simp

theorem State.takeAll_vSup (cs : List TripCause) (s : State) : (s.takeAll cs).haul.vSup = s.haul.vSup := by
  unfold State.takeAll
  induction cs generalizing s with
  | nil => rfl
  | cons c cs ih => exact (ih (s.takeCause c)).trans (s.takeCause_vSup c)

theorem State.compare_vSup (s : State) : s.compare.haul.vSup = s.haul.vSup := by
  rcases s.compare_cases with ⟨-, e⟩ | ⟨-, -, e⟩ | ⟨-, -, -, e⟩ | ⟨-, -, -, e⟩
  · rw [e, State.takeAll_vSup]
  · rw [e]; exact s.setLine_vSup .intervening
  · rw [e]; exact s.setLine_vSup .moving
  · rw [e]

theorem State.compareWith_vSup (s : State) (c : TripCause) : (s.compareWith c).haul.vSup = s.haul.vSup := by
  unfold State.compareWith
  split
  · split
    · exact State.takeAll_vSup _ s.bumpChoice
    · exact (State.takeCause_vSup _ c).trans s.bumpChoice.compare_vSup
  · exact s.takeCause_vSup c

/-! ### The comparison with the rollback test -/

/-- The state with the rollback condition as the test finds it (R29). -/
def State.rollbackTested (s : State) : State := { s with spd := { s.spd with rollback := s.rollbackMet } }

/-- The condition goes present at this test (R29). -/
def State.rollsBack (s : State) : Bool := s.rollbackMet && !s.spd.rollback

theorem State.compareRollback_of_rollsBack {s : State} (h : s.rollsBack = true) :
    s.compareRollback = s.rollbackTested.compareWith .rollback := if_pos h

theorem State.compareRollback_of_not_rollsBack {s : State} (h : s.rollsBack = false) :
    s.compareRollback = s.rollbackTested.compare := if_neg (by simpa [State.rollsBack] using h)

theorem State.compareRollback_vSup (s : State) : s.compareRollback.haul.vSup = s.haul.vSup := by
  cases h : s.rollsBack with
  | true => rw [State.compareRollback_of_rollsBack h]; exact s.rollbackTested.compareWith_vSup _
  | false => rw [State.compareRollback_of_not_rollsBack h]; exact s.rollbackTested.compare_vSup

/-- The rollback condition is present in RUNNING, in which OSB compares (R29, R92). -/
theorem State.comparesIn_of_rollsBack {s : State} (h : s.rollsBack = true) : comparesIn s.haul.line := by
  have running := State.running_of_rollbackMet (Bool.and_eq_true_iff.1 h).1
  unfold comparesIn
  cases hl : s.haul.line <;> simp_all [LineState.running]

/-- ROLLBACK together with a comparison (R29, R96). -/
theorem State.compareRollback_took {s : State} (h : s.rollsBack = true) :
    tookTogether .rollback s.spd.vMeas s.osb s s.compareRollback := by
  rw [State.compareRollback_of_rollsBack h]
  exact State.compareWith_rollback (s := s.rollbackTested) (State.comparesIn_of_rollsBack (s := s) h)

/-- The comparison alone, where the condition does not go present (R92 to R94). -/
theorem State.compareRollback_leaves {s : State} (h : s.rollsBack = false) :
    comparisonLeaves s.haul.line s.spd.vMeas s.haul.vPerm s.osb s s.compareRollback := by
  rw [State.compareRollback_of_not_rollsBack h]
  exact s.rollbackTested.compare_leaves

/-- The condition stays as the test found it, but for a trip, which leaves RUNNING (R29). -/
theorem State.compareRollback_rollback (s : State) :
    s.compareRollback.spd.rollback = (s.rollbackMet && decide (s.compareRollback.haul.line ≠ .tripped)) := by
  have runs : rollbackRuns s.rollbackTested := State.running_of_rollbackMet
  cases h : s.rollsBack with
  | true =>
    obtain ⟨line, -⟩ := State.compareRollback_took h
    rw [State.compareRollback_of_rollsBack h] at line ⊢
    simp [line, (runs.compareWith .rollback).absent_of_tripped line]
  | false =>
    rw [State.compareRollback_of_not_rollsBack h]
    by_cases hl : s.rollbackTested.compare.haul.line = .tripped
    · simp [hl, runs.compare.absent_of_tripped hl]
    · simp only [hl, State.compare_rollback hl, ne_eq, not_false_eq_true, decide_true, Bool.and_true]
      rfl

/-! ### A publication -/

/-- A publication ahead of the comparison: v_meas and the slip test (R25, R27). -/
def State.measured (s : State) : State :=
  ({ s with spd := { s.spd with vMeas := max s.spd.rope.speed s.spd.drive.speed } }).slipTest

theorem State.publish_of_rope (s : State) : s.publish .rope = s.measured.compareRollback := rfl
theorem State.publish_of_drive (s : State) : s.publish .drive = s.measured.compare := rfl

/-- The slip test changes the slip condition and its timer alone. -/
theorem State.slipTest_eq (s : State) :
    ∃ a b c, s.slipTest = { s with spd := { s.spd with slip := a, slipDue := b, slipPositive := c } } := by
  unfold State.slipTest
  dsimp only
  split
  · exact ⟨_, _, _, rfl⟩
  · split
    · exact ⟨_, _, _, rfl⟩
    · split
      · exact ⟨_, _, _, rfl⟩
      · exact ⟨_, _, _, rfl⟩
    · exact ⟨_, _, _, rfl⟩
    · exact ⟨_, _, _, rfl⟩

theorem State.measured_eq (s : State) :
    ∃ a b c, s.measured
      = { s with spd := { s.spd with
          vMeas := max s.spd.rope.speed s.spd.drive.speed, slip := a, slipDue := b, slipPositive := c } } :=
  State.slipTest_eq _

theorem State.publish_slipTested (s : State) (ch : Channel) : slipTested s (s.publish ch) := by
  have tested := State.slipTest_slipTested
    { s with spd := { s.spd with vMeas := max s.spd.rope.speed s.spd.drive.speed } }
  have kept : touches compareParts s.measured (s.publish ch) := by
    cases ch with
    | rope => exact State.compareRollback_touches _
    | drive => exact State.compare_touches _
  exact tested.congr ⟨rfl, rfl, rfl⟩ rfl (kept.1 .slip (by decide)) (kept.1 .rope (by decide)).symm
    (kept.1 .drive (by decide)).symm (kept.1 .time (by decide)).symm

theorem State.publish_vSup (s : State) (ch : Channel) : (s.publish ch).haul.vSup = s.haul.vSup := by
  obtain ⟨a, b, c, e⟩ := s.measured_eq
  cases ch with
  | rope => rw [State.publish_of_rope, State.compareRollback_vSup, e]
  | drive => rw [State.publish_of_drive, State.compare_vSup, e]

theorem State.publish_run (s : State) (ch : Channel) : (s.publish ch).haul.run = s.haul.run :=
  ((s.publish_touches ch).1 .run (by decide)).symm

/-- A publication finds the rollback condition going present: on the ROPE channel alone (R29). -/
def State.publishRolls (s : State) (ch : Channel) : Bool := decide (ch = .rope) && s.rollsBack

theorem State.measured_rollbackMet (s : State) : s.measured.rollbackMet = s.rollbackMet := by
  obtain ⟨a, b, c, e⟩ := s.measured_eq
  rw [e]
  rfl

theorem State.measured_rollsBack (s : State) : s.measured.rollsBack = s.rollsBack := by
  obtain ⟨a, b, c, e⟩ := s.measured_eq
  rw [e]
  rfl

/-- The comparison of a publication (R92 to R94). -/
theorem State.publish_leaves {s : State} {ch : Channel} (h : s.publishRolls ch = false) :
    comparisonLeaves s.haul.line (max s.spd.rope.speed s.spd.drive.speed) s.haul.vPerm s.osb s (s.publish ch) := by
  have rolls := s.measured_rollsBack
  have dest (t : State) (ht : comparisonLeaves s.measured.haul.line s.measured.spd.vMeas s.measured.haul.vPerm
      s.measured.osb s.measured t) :
      comparisonLeaves s.haul.line (max s.spd.rope.speed s.spd.drive.speed) s.haul.vPerm s.osb s t := by
    obtain ⟨a, b, c, e⟩ := s.measured_eq
    rw [e] at ht
    exact ht
  cases ch with
  | rope => exact dest _ (State.compareRollback_leaves (rolls.trans (by simpa [State.publishRolls] using h)))
  | drive => exact dest _ s.measured.compare_leaves

/-- The comparison of a publication together with ROLLBACK (R29, R96). -/
theorem State.publish_took {s : State} {ch : Channel} (h : s.publishRolls ch = true) :
    tookTogether .rollback (max s.spd.rope.speed s.spd.drive.speed) s.osb s (s.publish ch) := by
  obtain ⟨rfl, rolls⟩ : ch = .rope ∧ s.rollsBack = true := by simpa [State.publishRolls] using h
  have took := State.compareRollback_took (s.measured_rollsBack.trans rolls)
  obtain ⟨a, b, c, e⟩ := s.measured_eq
  rw [← State.publish_of_rope, e] at took
  exact took

/-- In MOVING a publication that does not leave the sub-phase leaves v_dem (R86). -/
theorem State.publish_vDem {s : State} {ch : Channel} (h : s.publishRolls ch = false) (hl : s.haul.line = .moving)
    (ht : (s.publish ch).haul.line = .moving) : (s.publish ch).haul.vDem = s.haul.vDem := by
  have rolls := s.measured_rollsBack
  obtain ⟨a, b, c, e⟩ := s.measured_eq
  have line : s.measured.haul = s.haul := by rw [e]
  have moving : s.measured.haul.line = .moving := by rw [line, hl]
  cases ch with
  | rope =>
    have not : s.measured.rollsBack = false := rolls.trans (by simpa [State.publishRolls] using h)
    rw [State.publish_of_rope, State.compareRollback_of_not_rollsBack not] at ht ⊢
    exact (State.compare_vDem (s := s.measured.rollbackTested) moving ht).trans (congrArg HaulState.vDem line)
  | drive => exact (State.compare_vDem moving ht).trans (congrArg HaulState.vDem line)

theorem State.publish_rope_rollback (s : State) :
    (s.publish .rope).spd.rollback = (s.rollbackMet && decide ((s.publish .rope).haul.line ≠ .tripped)) := by
  rw [State.publish_of_rope, State.compareRollback_rollback, State.measured_rollbackMet]

theorem State.publish_drive_rollback {s : State} (h : (s.publish .drive).haul.line ≠ .tripped) :
    (s.publish .drive).spd.rollback = s.spd.rollback := by
  obtain ⟨a, b, c, e⟩ := s.measured_eq
  have kept : s.measured.spd.rollback = s.spd.rollback := by rw [e]
  exact (State.compare_rollback h).trans kept

/-! ### A counting edge that publishes -/

/-- An edge of phase A that is no repeat and not too soon, with phase B low, is a counting edge (R19). -/
theorem State.phaseChange_counting {s : State} {ch : Channel} {level : Bool} {stamp : Nat}
    (hl : level ≠ (s.chan ch).levelA) (ht : ∀ e ∈ (s.chan ch).edgeA, e + 20 ≤ max s.now stamp)
    (hb : (s.chan ch).levelB = false) :
    s.phaseChange ch .a level stamp
      = ((s.advance stamp).setChan ch
          { s.chan ch with levelA := level, edgeA := some (max s.now stamp) }).takeCountingEdge ch level := by
  have same : (s.advance stamp).chan ch = s.chan ch := by cases ch <;> rfl
  have inTime : tooSoon (s.chan ch).edgeA (s.advance stamp).now = false := by
    cases he : (s.chan ch).edgeA with
    | none => rfl
    | some e => exact decide_eq_false (Nat.not_lt.2 (ht e he))
  unfold State.phaseChange
  dsimp only
  rw [same, if_neg hl, if_neg (by rw [inTime]; exact Bool.false_ne_true), if_neg (by simp [hb])]
  rfl

/-- From the second edge on a channel measures (R20 to R22). -/
theorem SpeedChannel.onEdge_of_moving {c : SpeedChannel} (h : c.capture ≠ .standstill) (forward : Bool)
    (now distance timeout : Nat) :
    let d := c.onEdge forward now distance timeout
    d.capture = .measuring ∧ d.forward = forward ∧ d.speed = min 13000 (distance * 1000 / (now - c.lastEdge)) := by
  cases hc : c.capture with
  | standstill => exact absurd hc h
  | starting => simp [SpeedChannel.onEdge, hc, channelSpeed]
  | measuring => simp [SpeedChannel.onEdge, hc, channelSpeed]

/-- An edge away from rest leaves the other blocks and the slip and rollback conditions ahead of its publication. -/
theorem State.edgeTaken_of_moving {s : State} (hr : s.atRest = false) (ch : Channel) (forward : Bool) :
    let t := s.edgeTaken ch forward
    t.haul = s.haul ∧ t.osb = s.osb ∧ t.params = s.params ∧ t.now = s.now ∧ samePart .slip s t
      ∧ t.spd.rollback = s.spd.rollback := by
  cases ch <;> simp [State.edgeTaken, hr, State.setChan, samePart]

@[simp] theorem State.publish_chan (s : State) (ch k : Channel) : (s.publish ch).chan k = s.chan k := by
  cases k with
  | rope => exact s.publish_rope ch
  | drive => exact s.publish_drive ch

/-- The larger of the two channel speeds, named by the channel that publishes. -/
theorem State.larger_speed (s : State) (ch : Channel) :
    max s.spd.rope.speed s.spd.drive.speed
      = max (s.chan ch).speed (match ch with | .rope => s.spd.drive.speed | .drive => s.spd.rope.speed) := by
  cases ch with
  | rope => rfl
  | drive => exact Nat.max_comm _ _

/-- The rollback test at an edge that publishes on the ROPE channel (R29). -/
theorem State.rollbackMet_of_measuring {s : State} {level : Bool} (hc : s.spd.rope.capture = .measuring)
    (hf : s.spd.rope.forward = level) :
    s.rollbackMet = (decide (s.running = true ∧ s.par 0x26 < s.spd.rope.speed)
      && (s.haul.run.map fun r => r.up != level).getD false) := by
  have turned : (fun r : RunRecord => s.spd.rope.forward != r.up) = fun r => r.up != level := by
    funext r
    rw [hf, bne_comm]
  unfold State.rollbackMet
  rw [hc, turned]
  cases (s.haul.run.map fun r => r.up != level).getD false <;> cases s.running <;> simp

/-- A counting edge away from rest that publishes: the state ahead of the publication, with the new speed (R20 to
R22). -/
theorem State.counted_of_edge {s : State} {ch : Channel} {level : Bool} {stamp : Nat}
    (hl : level ≠ (s.chan ch).levelA) (ht : ∀ e ∈ (s.chan ch).edgeA, e + 20 ≤ max s.now stamp)
    (hb : (s.chan ch).levelB = false) (hc : (s.chan ch).capture ≠ .standstill) (hr : s.atRest = false) :
    ∃ u : State, exec (.countingEdge ch level stamp) s = .next ((u.publish ch).deriveBoarding)
      ∧ u.haul = s.haul ∧ u.osb = s.osb ∧ u.params = s.params ∧ u.now = max s.now stamp ∧ samePart .slip s u
      ∧ u.spd.rollback = s.spd.rollback
      ∧ (u.chan ch).capture = .measuring ∧ (u.chan ch).forward = level
      ∧ (u.chan ch).speed
          = min 13000 (s.par (pulseParam ch) * 1000 / (max s.now stamp - (s.chan ch).lastEdge))
      ∧ (ch = .rope → u.spd.drive = s.spd.drive) ∧ (ch = .drive → u.spd.rope = s.spd.rope) := by
  obtain ⟨c, hce⟩ : ∃ c, c = { s.chan ch with levelA := level, edgeA := some (max s.now stamp) } := ⟨_, rfl⟩
  obtain ⟨w, hw⟩ : ∃ w, w = (s.advance stamp).setChan ch c := ⟨_, rfl⟩
  have chan : w.chan ch = c := by rw [hw, State.setChan_chan]
  have rest : w.atRest = false := by rw [hw]; cases ch <;> exact hr
  have moving : c.capture ≠ .standstill := by rw [hce]; exact hc
  obtain ⟨haul, osb, params, time, slip, cond⟩ := State.edgeTaken_of_moving rest ch level
  obtain ⟨rope, drive, -⟩ := w.edgeTaken_channels ch level
  have counted : (w.edgeTaken ch level).chan ch = c.onEdge level w.now (w.par (pulseParam ch)) (w.par 0x22) := by
    rw [← chan]
    cases ch with
    | rope => exact rope
    | drive => exact drive
  have now : w.now = max s.now stamp := by simp [hw]
  have par : w.par (pulseParam ch) = s.par (pulseParam ch) := State.par_congr (by simp [hw]) _
  have last : c.lastEdge = (s.chan ch).lastEdge := by rw [hce]
  obtain ⟨capture, forward, speed⟩ :=
    SpeedChannel.onEdge_of_moving moving level w.now (w.par (pulseParam ch)) (w.par 0x22)
  refine ⟨w.edgeTaken ch level, ?_, haul.trans (by simp [hw]), osb.trans (by simp [hw]), params.trans (by simp [hw]),
    time.trans now, ?_, ?_, by rw [counted, capture], by rw [counted, forward],
    by rw [counted, speed, now, par, last], ?_, ?_⟩
  · show Host.Outcome.next (s.phaseChange ch .a level stamp) = _
    rw [State.phaseChange_counting hl ht hb, ← hce, ← hw, State.takeCountingEdge_eq, chan, if_neg moving]
  · refine samePart.trans ?_ slip
    rw [hw]
    cases ch <;> exact ⟨rfl, rfl, rfl⟩
  · rw [cond, hw]
    cases ch <;> rfl
  · rintro rfl
    rw [drive, hw]
    rfl
  · rintro rfl
    rw [rope, hw]
    rfl

/-- Settles O46: the edge is a counting edge that publishes, and the publication is v_meas, the slip test and the
comparison, on the ROPE channel with the rollback test. -/
theorem overspeedIsComparedAtEachPublication : Obligations.OverspeedIsComparedAtEachPublication := by
  intro ch level stamp s now c hl ht hb hc hr distance speed v rolls rollback
  obtain ⟨u, run, haul, osb, params, time, slip, cond, capture, forward, hspeed, drive, rope⟩ :=
    State.counted_of_edge hl ht hb hc hr
  have hs : (u.chan ch).speed = speed := by cases ch <;> exact hspeed
  have hv : max u.spd.rope.speed u.spd.drive.speed = v := by
    rw [State.larger_speed u ch, hs]
    cases ch with
    | rope => rw [drive rfl]
    | drive => rw [rope rfl]
  have met : ch = .rope → u.rollbackMet = rolls := by
    rintro rfl
    have hs' : u.spd.rope.speed = speed := hs
    rw [State.rollbackMet_of_measuring capture forward, hs', State.running, haul, State.par_congr params]
    simp [rolls, State.running]
  have hroll : u.publishRolls ch = rollback := by
    cases ch with
    | rope => simp only [State.publishRolls, State.rollsBack, met rfl, cond, decide_true, Bool.true_and, rollback]
    | drive => simp [State.publishRolls, rollback, rolls]
  obtain ⟨b, p, e⟩ := (u.publish ch).deriveBoarding_eq
  have leaves (h : rollback = false) := State.publish_leaves (hroll.trans h)
  have took (h : rollback = true) := State.publish_took (hroll.trans h)
  have vDem (h : rollback = false) := State.publish_vDem (s := u) (hroll.trans h)
  rw [hv, osb] at took leaves
  rw [haul] at leaves vDem
  refine ⟨_, run, ?_⟩
  rw [e]
  refine ⟨(u.publish_now ch).trans time, (u.publish_vMeas ch).trans hv,
    (congrArg SpeedChannel.speed (u.publish_chan ch ch)).trans hs,
    (u.publish_slipTested ch).congr slip params.symm ⟨rfl, rfl, rfl⟩ rfl rfl rfl,
    (u.publish_run ch).trans (by rw [haul]), (u.publish_vSup ch).trans (by rw [haul]), ?ropeRollback, ?driveRollback,
    fun h => (took h).congr osb.symm rfl rfl, fun h => ⟨(leaves h).congr osb.symm params.symm rfl rfl rfl, vDem h⟩⟩
  case ropeRollback =>
    rintro rfl
    exact u.publish_rope_rollback.trans (by rw [met rfl])
  case driveRollback =>
    rintro rfl hn -
    exact (State.publish_drive_rollback hn).trans cond

end Sys2Proof.Machine
end

-- ==== The coming to rest of stop records ====
section
/-! What the tests of an ARRIVED record leave, and the stop records of the entries to DWELL and HALTED (R76, R78, R116,
R117, R120 to R122). -/

namespace Sys2Proof.Machine

/-! ### What the test of an ARRIVED record reads -/

/-- Two states agree in all that the test of an ARRIVED record reads (R118, R120 to R122). -/
structure SameBerthing (s t : State) : Prop where
  now : t.now = s.now
  params : t.params = s.params
  active : t.geo.active = s.geo.active
  posA : t.geo.pA = s.geo.pA
  referenced : t.geo.referenced = s.geo.referenced
  inspection : t.geo.inspection = s.geo.inspection
  live (c : Car) : (t.car c).live = (s.car c).live
  report (c : Car) : (t.car c).report = (s.car c).report
  admitted (c : Car) : (t.car c).admitted = (s.car c).admitted

/-- The parts that the test of an ARRIVED record reads. -/
def berthingParts : List Part := [.time, .params, .active, .position, .inspection, .links, .reports, .admitted]

theorem SameBerthing.of_keptBut {parts : List Part} {s t : State} (h : keptBut parts s t)
    (hp : ∀ p ∈ berthingParts, p ∉ parts) : SameBerthing s t := by
  obtain ⟨posA, referenced, -⟩ : _ ∧ _ ∧ _ := h .position (hp _ (by decide))
  obtain ⟨⟨liveA, -⟩, ⟨liveB, -⟩⟩ : (_ ∧ _) ∧ (_ ∧ _) := h .links (hp _ (by decide))
  obtain ⟨reportA, reportB⟩ : _ ∧ _ := h .reports (hp _ (by decide))
  obtain ⟨admittedA, admittedB⟩ : _ ∧ _ := h .admitted (hp _ (by decide))
  exact
    { now := (h .time (hp _ (by decide))).symm
      params := (h .params (hp _ (by decide))).symm
      active := (h .active (hp _ (by decide))).symm
      posA := posA.symm
      referenced := referenced.symm
      inspection := (h .inspection (hp _ (by decide))).symm
      live := fun c => by cases c; exacts [liveA.symm, liveB.symm]
      report := fun c => by cases c; exacts [reportA.symm, reportB.symm]
      admitted := fun c => by cases c; exacts [admittedA.symm, admittedB.symm] }

theorem SameBerthing.trans {s t u : State} (h : SameBerthing s t) (k : SameBerthing t u) : SameBerthing s u where
  now := k.now.trans h.now
  params := k.params.trans h.params
  active := k.active.trans h.active
  posA := k.posA.trans h.posA
  referenced := k.referenced.trans h.referenced
  inspection := k.inspection.trans h.inspection
  live c := (k.live c).trans (h.live c)
  report c := (k.report c).trans (h.report c)
  admitted c := (k.admitted c).trans (h.admitted c)

theorem SameBerthing.berthed {s t : State} (h : SameBerthing s t) (c : Car) (k : Nat) :
    t.berthed c k = s.berthed c k := by
  have posA : t.posA = s.posA := by rw [State.posA, h.posA, State.posA]
  have pos : t.pos c = s.pos c := by
    cases c with
    | a => exact posA
    | b => simp only [State.pos, State.posB, State.len, posA, h.active]
  have berth : t.berth k = s.berth k := by rw [State.berth, h.active, State.berth]
  have window : t.window = s.window := State.par_congr h.params 0x10
  rw [State.berthed, pos, berth, window, h.referenced, State.berthed]

theorem SameBerthing.arrivedRecord {s t : State} (h : SameBerthing s t) (c : Car) (b : Bool) (r : StopRecord) :
    arrivedRecord t c b r = arrivedRecord s c b r := by
  simp only [Machine.arrivedRecord, State.weigh, State.capacity, State.par, CarState.locked, CarState.sideLocked, h.now,
    h.params, h.active, h.inspection, h.report, h.admitted]
  rfl

/-- A record is not changed by its test, or it leaves ARRIVED. -/
theorem arrivedRecord_settled (s : State) (c : Car) (b : Bool) (r : StopRecord) :
    arrivedRecord s c b r = r ∨ (arrivedRecord s c b r).phase ≠ .arrived := by
  unfold arrivedRecord
  dsimp only
  split
  · split
    · exact .inr (by simp)
    · exact .inl rfl
  · split
    · split
      · split
        · exact .inr (by simp)
        · split <;> exact .inr (by simp)
      · exact .inr (by simp)
    · exact .inl rfl

/-! ### The test for the berthed conditions -/

theorem State.exitClose_of_record {s : State} {c : Car} {r : StopRecord} (hr : s.record c = some r) :
    s.exitClose c = s.setRecord c (some
      { r with
        phaseDue := none, close := some ⟨true, 0, false⟩, closeDue := some (s.now + sec (s.par 0x82)) }) := by
  have first : (s.modRecord c fun r => { r with phaseDue := none })
      = s.setRecord c (some { r with phaseDue := none }) := by
    simp only [State.modRecord, hr]
  rw [State.exitClose, first, State.commandClose, State.modRecord, State.setRecord_record]
  cases c <;> rfl

theorem State.enterAlighting_of_record {s : State} {c : Car} {r : StopRecord} (hr : s.record c = some r) (n : Nat) :
    s.enterAlighting c n = (s.setRecord c (some
      (if n = 0 then
        { r with
          phase := .alighting, phaseDue := none, close := some ⟨true, 0, false⟩,
          closeDue := some (s.now + sec (s.par 0x82)) }
      else { r with phase := .alighting, phaseDue := some (s.now + sec n) }))).raise .stopPhase := by
  have first : (s.modRecord c fun r => { r with phase := .alighting, phaseDue := some (s.now + sec n) })
      = s.setRecord c (some { r with phase := .alighting, phaseDue := some (s.now + sec n) }) := by
    simp only [State.modRecord, hr]
  rw [State.enterAlighting, first]
  split
  · rw [State.exitClose_of_record (r := { r with phase := .alighting, phaseDue := some (s.now + sec n) })
      (by cases c <;> rfl)]
    cases c <;> rfl
  · rfl

theorem State.enterBoarding_of_record {s : State} {c : Car} {r : StopRecord} (hr : s.record c = some r) :
    s.enterBoarding c = (s.setRecord c (some
      { r with
        phase := .boarding, wOpen := some (s.weigh c (s.car c).admitted),
        quota := s.capacity - s.weigh c (s.car c).admitted,
        phaseDue := some (s.now + sec (((s.geo.active.station r.station).map (·.board)).getD 0)),
        closeDue := none, close := none })).raise .stopPhase := by
  simp only [State.enterBoarding, hr]

/-- A berthed record leaves ARRIVED: its new form, and STOP PHASE (R120 to R122). -/
theorem State.testBerthed_of_berthed {s : State} {c : Car} {r : StopRecord} (hr : s.record c = some r)
    (ht : r.phase = .arrived ∧ s.geo.inspection = false ∧ s.berthedConditions c r) :
    s.testBerthed c = (s.setRecord c (some (arrivedRecord s c true r))).raise .stopPhase := by
  obtain ⟨-, service, -⟩ := id ht
  simp only [State.testBerthed, hr, if_pos ht]
  cases hy : s.geo.active.station r.station with
  | none => simp [State.enterBoarding_of_record hr, arrivedRecord, service, hy]
  | some y =>
    by_cases exits : y.separateExit = none
    · simp [State.enterBoarding_of_record hr, arrivedRecord, service, hy, exits]
    · simp [State.enterAlighting_of_record hr, arrivedRecord, service, hy, exits, Option.isSome_iff_ne_none]

/-- A record after the test for the berthed conditions (R120). -/
def State.berthedTest (s : State) (c : Car) (r : StopRecord) : StopRecord :=
  if r.phase = .arrived ∧ s.geo.inspection = false then arrivedRecord s c (s.berthedConditions c r) r else r

theorem State.testBerthed_cases (s : State) (c : Car) :
    (s.testBerthed c = s ∧ ∀ r, s.record c = some r → s.berthedTest c r = r)
      ∨ ∃ r, s.record c = some r
          ∧ s.testBerthed c = (s.setRecord c (some (s.berthedTest c r))).raise .stopPhase := by
  cases hr : s.record c with
  | none => exact .inl ⟨by simp only [State.testBerthed, hr], nofun⟩
  | some r =>
    by_cases ht : r.phase = .arrived ∧ s.geo.inspection = false ∧ s.berthedConditions c r
    · refine .inr ⟨r, rfl, ?_⟩
      rw [State.testBerthed_of_berthed hr ht, State.berthedTest, if_pos ⟨ht.1, ht.2.1⟩, ht.2.2]
    · refine .inl ⟨by simp only [State.testBerthed, hr, if_neg ht], ?_⟩
      rintro _ ⟨⟩
      unfold State.berthedTest
      split
      case isTrue h =>
        have away : s.berthedConditions c r = false := by simpa [h] using ht
        simp [arrivedRecord, h, away]
      case isFalse => rfl

theorem State.testBerthed_record (s : State) (c : Car) :
    (s.testBerthed c).record c = (s.record c).map (s.berthedTest c) := by
  rcases s.testBerthed_cases c with ⟨e, h⟩ | ⟨r, hr, e⟩
  · rw [e]
    cases hr : s.record c with
    | none => rfl
    | some r => rw [Option.map_some, h r hr]
  · rw [e, hr]
    exact s.setRecord_record c _

theorem State.testBerthed_other (s : State) (c : Car) :
    (s.testBerthed c).record (otherCar c) = s.record (otherCar c) := by
  rcases s.testBerthed_cases c with ⟨e, -⟩ | ⟨r, -, e⟩
  · rw [e]
  · rw [e]
    exact s.setRecord_other c _

/-- STOP PHASE is raised where the test changes the phase (R120, R183). -/
theorem State.testBerthed_raises {s : State} {c : Car} {r : StopRecord} (hr : s.record c = some r)
    (h : s.berthedTest c r ≠ r) : hasAttention (s.testBerthed c) .stopPhase = true := by
  rcases s.testBerthed_cases c with ⟨-, same⟩ | ⟨_, -, e⟩
  · exact absurd (same r hr) h
  · rw [e]
    exact State.hasAttention_raise _ _

theorem State.testBerthed_sameBerthing (s : State) (c : Car) : SameBerthing s (s.testBerthed c) :=
  .of_keptBut (s.testBerthed_touches c).1 (by decide)

/-- The berthed conditions read the line state and the line-at-rest flag besides (R120). -/
theorem SameBerthing.berthedConditions {s t : State} (h : SameBerthing s t) (hl : t.haul.line = s.haul.line)
    (hr : t.spd.restSince = s.spd.restSince) (c : Car) (r : StopRecord) :
    t.berthedConditions c r = s.berthedConditions c r := by
  simp only [State.berthedConditions, State.atRest, h.berthed, h.live, hl, hr]

theorem SameBerthing.berthedTest {s t : State} (h : SameBerthing s t) (hl : t.haul.line = s.haul.line)
    (hr : t.spd.restSince = s.spd.restSince) (c : Car) : t.berthedTest c = s.berthedTest c := by
  funext r
  simp only [State.berthedTest, h.inspection, h.berthedConditions hl hr, h.arrivedRecord]

/-! ### Both tests -/

/-- The two tests of a rest confirmation (R120). -/
def State.testBoth (s : State) : State := (s.testBerthed .a).testBerthed .b

theorem State.testBoth_touches (s : State) : touches [.records, .attention] s s.testBoth :=
  (s.testBerthed_touches .a).step (State.testBerthed_touches _ .b)

theorem State.testBoth_record (s : State) (c : Car) : s.testBoth.record c = (s.record c).map (s.berthedTest c) := by
  have kept := (s.testBerthed_touches .a).1
  cases c with
  | a => exact ((s.testBerthed .a).testBerthed_other .b).trans (s.testBerthed_record .a)
  | b =>
    have other : (s.testBerthed .a).record .b = s.record .b := s.testBerthed_other .a
    rw [State.testBoth, State.testBerthed_record, other,
      (s.testBerthed_sameBerthing .a).berthedTest (kept .line (by decide)).symm (kept .rest (by decide)).1.symm]

theorem State.testBoth_raises {s : State} {c : Car} {r : StopRecord} (hr : s.record c = some r)
    (h : s.berthedTest c r ≠ r) : hasAttention s.testBoth .stopPhase = true := by
  have kept := (s.testBerthed_touches .a).1
  cases c with
  | a => exact (State.testBerthed_touches _ .b).2.hasAttention (State.testBerthed_raises hr h)
  | b =>
    refine State.testBerthed_raises ((s.testBerthed_other .a).trans hr) ?_
    rwa [(s.testBerthed_sameBerthing .a).berthedTest (kept .line (by decide)).symm (kept .rest (by decide)).1.symm]

/-- The berthed conditions hold in DWELL alone, so elsewhere the tests change no record (R120). -/
theorem State.testBoth_of_not_dwell {s : State} (h : s.haul.line ≠ .dwell) (c : Car) :
    s.testBoth.record c = s.record c := by
  have still : s.berthedTest c = id := by
    funext r
    unfold State.berthedTest
    split
    case isTrue hp =>
      have away : s.berthedConditions c r = false := by simp [State.berthedConditions, h]
      simp [arrivedRecord, hp, away]
    case isFalse => rfl
  rw [State.testBoth_record, still, Option.map_id, id]

/-! ### The test in inspection mode -/

theorem State.enterReady_of_record {s : State} {c : Car} {r : StopRecord} (hr : s.record c = some r) :
    ∃ n, s.enterReady c = ((s.setRecord c (some
      { r with phase := .ready, phaseDue := none, closeDue := none, close := none, reopening := false })).setLoad c
        n).raise .stopPhase := by
  simp only [State.enterReady, hr]
  exact ⟨_, rfl⟩

theorem State.setLoad_record (s : State) (c k : Car) (n : Nat) : (s.setLoad c n).record k = s.record k := by
  cases c <;> rfl

theorem State.enterReady_other (s : State) (c : Car) :
    (s.enterReady c).record (otherCar c) = s.record (otherCar c) := by
  cases hr : s.record c with
  | none => simp only [State.enterReady, hr]
  | some r =>
    obtain ⟨n, e⟩ := State.enterReady_of_record hr
    rw [e]
    exact (State.setLoad_record _ c _ n).trans (s.setRecord_other c _)

theorem State.testInspection_other (s : State) (c : Car) :
    (s.testInspection c).record (otherCar c) = s.record (otherCar c) := by
  unfold State.testInspection
  split
  · rfl
  · split
    · rw [State.enterReady_other, State.setRecord_other]
    · rfl

theorem State.testInspection_record {s : State} (h : s.geo.inspection = true) (c : Car) :
    (s.testInspection c).record c
      = (s.record c).map fun r => if r.phase = .arrived then arrivedRecord s c (s.berthedConditions c r) r else r := by
  cases hr : s.record c with
  | none => simp only [State.testInspection, hr, Option.map_none]
  | some r =>
    simp only [State.testInspection, hr, h, true_and, Option.map_some]
    by_cases hp : r.phase = .arrived
    · by_cases ht : r.suspended = false ∧ (s.car c).locked = true
      · obtain ⟨suspended, locked⟩ := id ht
        obtain ⟨n, e⟩ := State.enterReady_of_record (c := c) (s.setRecord_record c
          (some { r with wOpen := some (s.weigh c (s.car c).admitted), quota := 0 }))
        rw [if_pos ⟨hp, ht⟩, e]
        refine (State.setLoad_record _ c c n).trans ?_
        rw [State.setRecord_record]
        simp [arrivedRecord, h, hp, suspended, locked]
      · rw [if_neg (fun k => ht k.2), hr]
        have stays : ¬((s.car c).locked = true ∧ r.suspended = false) := fun k => ht ⟨k.2, k.1⟩
        simp [arrivedRecord, h, stays]
    · simp [hp, hr]

/-! ### The stop records of an entry to DWELL -/

theorem State.testArrived_of_service {s : State} (h : s.geo.inspection = false) (c : Car) :
    s.testArrived c = s.testBerthed c := by
  have service : (s.testBerthed c).geo.inspection = false := (s.testBerthed_sameBerthing c).inspection.trans h
  unfold State.testArrived State.testInspection
  split <;> simp [service]

theorem State.testArrived_of_inspection {s : State} (h : s.geo.inspection = true) (c : Car) :
    s.testArrived c = s.testInspection c := by
  have same : s.testBerthed c = s := by
    unfold State.testBerthed
    split <;> simp [h]
  rw [State.testArrived, same]

theorem State.testArrived_record (s : State) (c : Car) :
    (s.testArrived c).record c
      = (s.record c).map fun r => if r.phase = .arrived then arrivedRecord s c (s.berthedConditions c r) r else r := by
  cases h : s.geo.inspection with
  | false =>
    rw [State.testArrived_of_service h, State.testBerthed_record]
    unfold State.berthedTest
    simp only [h, and_true]
  | true => rw [State.testArrived_of_inspection h, State.testInspection_record h]

theorem State.testArrived_other (s : State) (c : Car) :
    (s.testArrived c).record (otherCar c) = s.record (otherCar c) :=
  ((s.testBerthed c).testInspection_other c).trans (s.testBerthed_other c)

theorem State.testArrived_sameBerthing (s : State) (c : Car) : SameBerthing s (s.testArrived c) :=
  .of_keptBut (s.testArrived_touches c).1 (by decide)

/-- A stop record as it is created (R116). -/
def freshRecord (k : Nat) (alarm : Bool) : StopRecord :=
  { station := k, phase := .arrived, wOpen := none, quota := 0, boarded := 0, held := 0, late := 0, alarm := alarm,
    doorFault := false, suspended := false, phaseDue := none, closeDue := none, close := none, reopening := false }

/-- The station at which a car stands where car A is at station k (R116). -/
def stationOf (k : Nat) : Car → Nat
  | .a => k
  | .b => 3 - k

/-- Two new records ahead of their tests (R116). -/
def State.newRecords (s : State) (k : Nat) : State := ((s.newRecord .a k).newRecord .b (3 - k)).raise .stopPhase

theorem State.createRecords_eq (s : State) (k : Nat) :
    s.createRecords k = ((s.newRecords k).testArrived .a).testArrived .b := rfl

theorem State.newRecords_record (s : State) (k : Nat) (c : Car) :
    (s.newRecords k).record c = some (freshRecord (stationOf k c) (s.car c).pendingAlarm) := by
  cases c <;> rfl

theorem State.newRecords_touches (s : State) (k : Nat) : touches [.records, .alarms, .attention] s (s.newRecords k) :=
  (((s.newRecord_touches .a k).trans (State.newRecord_touches _ .b (3 - k))).trans
    (State.raise_touches _ .stopPhase)).mono (by decide)

/-- A record that is created in DWELL is tested at once (R116, R120). -/
theorem State.createRecords_record {s : State} (h : s.haul.line = .dwell) (k : Nat) (c : Car) :
    (s.createRecords k).record c = some (arrivalRecord s c (stationOf k c)) := by
  have made := (s.newRecords_touches k).1
  have first := ((s.newRecords k).testArrived_touches .a).1
  have tested (t : State) (st : SameBerthing s t) (hl : s.haul.line = t.haul.line)
      (hr : s.spd.restSince = t.spd.restSince)
      (rec : t.record c = some (freshRecord (stationOf k c) (s.car c).pendingAlarm)) :
      (t.testArrived c).record c = some (arrivalRecord s c (stationOf k c)) := by
    rw [State.testArrived_record, rec, Option.map_some, st.berthedConditions hl.symm hr.symm, st.arrivedRecord,
      State.berthedConditions, h]
    simp [arrivalRecord, freshRecord]
  have new := SameBerthing.of_keptBut made (by decide)
  have line : s.haul.line = (s.newRecords k).haul.line := made .line (by decide)
  have rest : s.spd.restSince = (s.newRecords k).spd.restSince := (made .rest (by decide)).1
  rw [State.createRecords_eq]
  cases c with
  | a => exact (State.testArrived_other _ .b).trans (tested _ new line rest (s.newRecords_record k .a))
  | b =>
    exact tested _ (new.trans (State.testArrived_sameBerthing _ .a)) (line.trans (first .line (by decide)))
      (rest.trans (first .rest (by decide)).1)
      ((State.testArrived_other _ .a).trans (s.newRecords_record k .b))

/-- Out of inspection mode no new record enters READY, so the load figures stay (R120, R124). -/
theorem State.createRecords_loads {s : State} (h : s.geo.inspection = false) (k : Nat) :
    samePart .loads s (s.createRecords k) := by
  have made := s.newRecords_touches k
  have service : (s.newRecords k).geo.inspection = false :=
    (SameBerthing.of_keptBut made.1 (by decide)).inspection.trans h
  have tested : ((s.newRecords k).testBerthed .a).geo.inspection = false :=
    ((s.newRecords k).testBerthed_sameBerthing .a).inspection.trans service
  rw [State.createRecords_eq, State.testArrived_of_service service, State.testArrived_of_service tested]
  exact ((made.trans (State.testBerthed_touches _ .a)).trans (State.testBerthed_touches _ .b)).1 .loads (by decide)

/-! ### The discard of both stop records -/

theorem keptBut.record {parts : List Part} {s t : State} (h : keptBut parts s t) (hp : Part.records ∉ parts) (c : Car) :
    t.record c = s.record c := by
  obtain ⟨a, b⟩ : _ ∧ _ := h .records hp
  cases c with
  | a => exact a.symm
  | b => exact b.symm

/-- An absent record stays absent where a claim lapses (R166). -/
theorem State.lapseClaim_absent {s : State} {c : Car} (h : s.record c = none) (cl : Claim) :
    (s.lapseClaim cl).record c = none := by
  have lowered : (s.lowerHeld cl.car cl.persons).record c = none := by
    unfold State.lowerHeld State.tryReady
    by_cases hc : c = cl.car
    · subst hc
      have absent := (s.modRecord_record cl.car fun r => { r with held := r.held - cl.persons }).trans
        (congrArg (Option.map _) h)
      split
      · exact absent
      case h_2 r hr => cases absent.symm.trans hr
    · obtain rfl : c = otherCar cl.car := by revert hc; cases c <;> cases cl.car <;> simp [otherCar]
      have absent := (s.modRecord_other cl.car fun r => { r with held := r.held - cl.persons }).trans h
      split
      · exact absent
      · split
        · rw [State.enterReady_other]; exact absent
        · exact absent
  have kept : touches ([.ent] ++ [.claims] ++ [.gates]) (s.lowerHeld cl.car cl.persons) (s.lapseClaim cl) :=
    ((State.detachClaim_touches _ cl.slot).trans (State.dropClaim_touches _ cl.id)).trans
      (State.modGate_touches _ cl.gate _)
  exact (kept.1.record (by decide) c).trans lowered

theorem State.lapseClaims_absent {s : State} {c : Car} (h : s.record c = none) (claims : List Claim) :
    (claims.foldl State.lapseClaim s).record c = none := by
  induction claims generalizing s with
  | nil => exact h
  | cons cl rest ih => exact ih (State.lapseClaim_absent h cl)

theorem State.discardRecord_absent (s : State) {c k : Car} (h : c = k ∨ s.record c = none) :
    (s.discardRecord k).record c = none := by
  cases hk : s.record k with
  | none =>
    have same : s.discardRecord k = s := by simp only [State.discardRecord, hk]
    rw [same]
    rcases h with rfl | h
    exacts [hk, h]
  | some r =>
    have removed : (s.setRecord k none).record c = none := by
      by_cases hc : c = k
      · rw [hc, State.setRecord_record]
      · obtain rfl : c = otherCar k := by revert hc; cases c <;> cases k <;> simp [otherCar]
        rw [State.setRecord_other]
        exact h.resolve_left hc
    simp only [State.discardRecord, hk]
    exact ((State.forgetRecord_touches _ k).1.record (by decide) c).trans (State.lapseClaims_absent removed _)

theorem State.discardRecords_absent (s : State) (c : Car) : s.discardRecords.record c = none := by
  cases c with
  | a => exact State.discardRecord_absent _ (.inr (s.discardRecord_absent (.inl rfl)))
  | b => exact State.discardRecord_absent _ (.inl rfl)

end Sys2Proof.Machine
end

-- ==== The timers of the speed channels ====
section
/-! What the standstill and rest timers leave at their expiry (R23, R25 to R29, R76, R78, R92 to R94, R105, R120). -/

namespace Sys2Proof.Machine

/-! ### The entry to DWELL with new stop records -/

theorem threshold_zero (factor offset : Nat) : threshold 0 factor offset = min 13000 offset := by
  simp [threshold_eq]

/-- The line as it stands in DWELL ahead of its new stop records (R66, R78). -/
def State.dwelling (s : State) : State := (s.setLine .dwell).dwellSpeeds

theorem State.enterDwell_eq (s : State) (k : Nat) : s.enterDwell k = s.dwelling.createRecords k := rfl

theorem State.dwelling_stands (s : State) : standsInDwell s s.dwelling := by
  have par (n : Nat) : s.dwelling.par n = s.par n := State.par_congr (by simp [State.dwelling]) n
  have t1 : s.dwelling.osb.t1 = min 13000 (s.par 0x71) := (threshold_zero _ _).trans (congrArg _ (par 0x71))
  have t2 : s.dwelling.osb.t2 = min 13000 (s.par 0x73) := (threshold_zero _ _).trans (congrArg _ (par 0x73))
  exact ⟨rfl, rfl, rfl, rfl, rfl, rfl, rfl, rfl, rfl, t1, t2, par 0x74, rfl, rfl, rfl, rfl, rfl,
    s.setLine_hasAttention .dwell⟩

theorem State.dwelling_touches (s : State) :
    touches (lineParts ++ [.run, .haltCause, .torque, .speeds, .thresholds]) s s.dwelling :=
  (s.setLine_touches .dwell).trans (State.dwellSpeeds_touches _)

/-- The stop records play no part in how the line stands in DWELL. -/
theorem standsInDwell.of_touches {parts : List Part} {s t u : State} (h : standsInDwell s t) (hu : touches parts t u)
    (hp : ∀ p ∈ [Part.line, .run, .speeds, .torque, .outputs, .thresholds, .rollback, .evac], p ∉ parts) :
    standsInDwell s u := by
  obtain ⟨hline, hrun, hperm, hsup, hdem, hdue, hdrive, hsafety, hservice, ht1, ht2, habs, hroll, hal, har, hbl, hbr,
    hatt⟩ := h
  have line : t.haul.line = u.haul.line := hu.1 .line (hp _ (by decide))
  have run : t.haul.run = u.haul.run := hu.1 .run (hp _ (by decide))
  obtain ⟨perm, sup, dem, -⟩ : _ ∧ _ ∧ _ ∧ _ := hu.1 .speeds (hp _ (by decide))
  obtain ⟨-, due⟩ : _ ∧ _ := hu.1 .torque (hp _ (by decide))
  obtain ⟨drive, safety, service⟩ : _ ∧ _ ∧ _ := hu.1 .outputs (hp _ (by decide))
  obtain ⟨t1, t2, vAbs⟩ : _ ∧ _ ∧ _ := hu.1 .thresholds (hp _ (by decide))
  have roll : t.spd.rollback = u.spd.rollback := hu.1 .rollback (hp _ (by decide))
  obtain ⟨⟨al, ar⟩, ⟨bl, br⟩⟩ : (_ ∧ _) ∧ (_ ∧ _) := hu.1 .evac (hp _ (by decide))
  exact ⟨line ▸ hline, run ▸ hrun, perm ▸ hperm, sup ▸ hsup, dem ▸ hdem, due ▸ hdue, drive ▸ hdrive, safety ▸ hsafety,
    service ▸ hservice, t1 ▸ ht1, t2 ▸ ht2, vAbs ▸ habs, roll ▸ hroll, al ▸ hal, ar ▸ har, bl ▸ hbl, br ▸ hbr,
    hu.2.hasAttention hatt⟩

theorem SameBerthing.arrivalRecord {s t : State} (h : SameBerthing s t) (hr : t.spd.restSince = s.spd.restSince)
    (ha : ∀ c, (t.car c).pendingAlarm = (s.car c).pendingAlarm) (c : Car) (k : Nat) :
    arrivalRecord t c k = arrivalRecord s c k := by
  rw [Machine.arrivalRecord, h.arrivedRecord, h.berthed, h.live, ha, State.atRest, hr]
  rfl

/-- The stop records of an entry to DWELL, each as its own test leaves it (R116, R120). -/
theorem State.enterDwell_record (s : State) (k : Nat) (c : Car) :
    (s.enterDwell k).record c = some (arrivalRecord s c (stationOf k c)) := by
  have kept := s.dwelling_touches.1
  have alarm (c : Car) : (s.dwelling.car c).pendingAlarm = (s.car c).pendingAlarm := by
    obtain ⟨a, b⟩ : _ ∧ _ := kept .alarms (by decide)
    cases c with
    | a => exact a.symm
    | b => exact b.symm
  obtain ⟨line, -⟩ := s.dwelling_stands
  rw [State.enterDwell_eq, State.createRecords_record line,
    (SameBerthing.of_keptBut kept (by decide)).arrivalRecord (kept .rest (by decide)).1.symm alarm]

/-- A record that stays in ARRIVED at its creation is not changed by the test made again (R120). -/
theorem State.enterDwell_tested (s : State) (k : Nat) (c : Car) :
    (s.enterDwell k).testBoth.record c = some (arrivalRecord s c (stationOf k c)) := by
  have kept := (s.enterDwell_touches k).1
  have rest : (s.enterDwell k).spd.restSince = s.spd.restSince := (kept .rest (by decide)).1.symm
  have same := SameBerthing.of_keptBut kept (by decide)
  have line : (s.enterDwell k).haul.line = .dwell :=
    ((s.dwelling.createRecords_touches k).1 .line (by decide)).symm
  rw [State.testBoth_record, s.enterDwell_record, Option.map_some]
  congr 1
  rcases arrivedRecord_settled s c (s.berthed c (stationOf k c) && s.atRest && (s.car c).live)
    (freshRecord (stationOf k c) (s.car c).pendingAlarm) with stays | leaves
  · have fresh : arrivalRecord s c (stationOf k c) = freshRecord (stationOf k c) (s.car c).pendingAlarm := stays
    have again : (s.enterDwell k).berthedConditions c (freshRecord (stationOf k c) (s.car c).pendingAlarm)
        = (s.berthed c (stationOf k c) && s.atRest && (s.car c).live) := by
      simp [State.berthedConditions, State.atRest, same.berthed, same.live, line, rest, freshRecord]
    rw [fresh, State.berthedTest, again, same.arrivedRecord, stays, ite_self]
  · exact if_neg (fun h => leaves h.1)

/-- The entry to DWELL with its records tested once more, as a coming to rest does (R78, R116, R120). -/
theorem State.enterDwell_entered (s : State) (k : Nat) : enteredDwell k s (s.enterDwell k).testBoth.deriveBoarding := by
  have later : touches [.records, .loads, .attention, .boarding] (s.dwelling.newRecords k)
      (s.enterDwell k).testBoth.deriveBoarding :=
    ((((State.testArrived_touches _ .a).step (State.testArrived_touches _ .b)).trans (State.testBoth_touches _)).trans
      (State.deriveBoarding_touches _)).mono (by decide)
  have all := (s.dwelling.newRecords_touches k).trans later
  have derived (c : Car) := (State.deriveBoarding_touches (s.enterDwell k).testBoth).1.record (by decide) c
  obtain ⟨alarmA, alarmB⟩ : _ ∧ _ := later.1 .alarms (by decide)
  refine ⟨s.dwelling_stands.of_touches all (by decide), (all.1 .haltCause (by decide)).symm,
    (derived .a).trans (s.enterDwell_tested k .a), (derived .b).trans (s.enterDwell_tested k .b),
    alarmA.symm, alarmB.symm, fun h => ?_, later.2.hasAttention (State.hasAttention_raise _ _)⟩
  have service : s.dwelling.geo.inspection = false :=
    (SameBerthing.of_keptBut s.dwelling_touches.1 (by decide)).inspection.trans h
  obtain ⟨a, b⟩ : samePart .loads s (s.enterDwell k).testBoth.deriveBoarding :=
    ((s.dwelling_touches.1 .loads (by decide)).trans (State.createRecords_loads service k)).trans
      (((State.testBoth_touches _).trans (State.deriveBoarding_touches _)).1 .loads (by decide))
  exact ⟨a.symm, b.symm⟩

/-! ### The entry to HALTED -/

/-- The line as it stands in HALTED ahead of the discard of its stop records (R76). -/
def State.halting (s : State) (h : HaltCause) : State := (((s.setLine .halted).setHalt h).setPerm 0).stopTorque

theorem State.enterHalted_eq (s : State) (h : HaltCause) : s.enterHalted h = (s.halting h).discardRecords := rfl

/-- The entry to HALTED with its absent records tested, as a coming to rest does (R76, R78, R120). -/
theorem State.enterHalted_entered (s : State) (h : HaltCause) :
    enteredHalted h s (s.enterHalted h).testBoth.deriveBoarding := by
  have later : touches (lapseParts ++ [.boarding]) (s.halting h) (s.enterHalted h).testBoth.deriveBoarding := by
    rw [State.enterHalted_eq]
    exact (((State.discardRecords_touches _).trans (State.testBoth_touches _)).trans
      (State.deriveBoarding_touches _)).mono (by decide)
  have absent (c : Car) : (s.enterHalted h).testBoth.deriveBoarding.record c = none := by
    have discarded : (s.enterHalted h).record c = none := (s.halting h).discardRecords_absent c
    rw [(State.deriveBoarding_touches _).1.record (by decide), State.testBoth_record, discarded, Option.map_none]
  obtain ⟨perm, sup, dem, -⟩ : _ ∧ _ ∧ _ ∧ _ := later.1 .speeds (by decide)
  obtain ⟨-, due⟩ : _ ∧ _ := later.1 .torque (by decide)
  obtain ⟨drive, safety, service⟩ : _ ∧ _ ∧ _ := later.1 .outputs (by decide)
  exact ⟨(later.1 .line (by decide)).symm, (later.1 .haltCause (by decide)).symm, (later.1 .run (by decide)).symm,
    perm.symm, dem.symm, sup.symm, due.symm, drive.symm, safety.symm, service.symm,
    (later.1 .rollback (by decide)).symm, absent .a, absent .b,
    later.2.hasAttention (s.setLine_hasAttention .halted)⟩

/-! ### The rest timer -/

/-- What a rest confirmation does once the flag is set (R78, R105, R120). -/
def State.rested (s : State) : State := s.takeRest.testBoth.deriveBoarding

theorem State.rested_touches (s : State) : touches (.boarding :: .resetWait :: transitionParts) s s.rested :=
  ((s.takeRest_touches.trans (State.testBoth_touches _)).trans (State.deriveBoarding_touches _)).mono (by decide)

theorem State.takeRest_of_berthed {s : State}
    (h : s.haul.line = .moving ∨ s.haul.line = .intervening ∨ s.haul.line = .halted) {k : Nat}
    (hk : s.current = some k) : s.takeRest = s.enterDwell k := by
  rcases h with h | h | h <;> simp [State.takeRest, State.comeToRest, h, hk]

theorem State.takeRest_off_berth {s : State} (h : s.haul.line = .moving ∨ s.haul.line = .intervening)
    (hk : s.current = none) : s.takeRest = s.enterHalted .offBerth := by
  rcases h with h | h <;> simp [State.takeRest, State.comeToRest, h, hk]

theorem State.takeRest_of_tripped {s : State} (h : s.haul.line = .tripped) : s.takeRest = s.beginWait := if_pos h

/-- The line stays as it is where it did not run, or stands in HALTED off a berth (R78). -/
theorem State.takeRest_of_still {s : State}
    (h : s.haul.line = .parked ∨ s.haul.line = .dwell ∨ s.haul.line = .starting
      ∨ (s.haul.line = .halted ∧ s.current = none)) : s.takeRest = s := by
  rcases h with h | h | h | ⟨h, hk⟩ <;> simp [State.takeRest, State.comeToRest, *]

/-- Where the line stays as it is, only the records are tested (R120). -/
theorem State.rested_of_still {s : State} (h : s.takeRest = s) :
    touches [.records, .attention, .boarding] s s.rested := by
  rw [State.rested, h]
  exact (s.testBoth_touches.trans (State.deriveBoarding_touches _)).mono (by decide)

theorem State.rested_record (s : State) (c : Car) : s.rested.record c = s.takeRest.testBoth.record c :=
  (State.deriveBoarding_touches _).1.record (by decide) c

/-- The trip reset wait starts with the line at rest (R105). -/
theorem State.rested_of_tripped {s : State} (h : s.haul.line = .tripped) (hr : s.atRest = true) :
    s.rested.haul.line = .tripped ∧ s.rested.osb.resetElapsed = false
      ∧ s.rested.osb.resetDue = some (s.now + sec (s.par 0x76)) := by
  have kept : touches [.records, .attention, .boarding] s.beginWait s.rested := by
    rw [State.rested, State.takeRest_of_tripped h]
    exact ((State.testBoth_touches _).trans (State.deriveBoarding_touches _)).mono (by decide)
  obtain ⟨due, elapsed⟩ : _ ∧ _ := kept.1 .resetWait (by decide)
  have line : s.beginWait.haul.line = s.rested.haul.line := kept.1 .line (by decide)
  exact ⟨line.symm.trans h, elapsed.symm, due.symm.trans (if_pos hr)⟩

/-- The berthed conditions are not met outside DWELL, so the records stay (R120). -/
theorem State.rested_records {s : State}
    (h : s.haul.line = .parked ∨ s.haul.line = .starting ∨ s.haul.line = .tripped) (c : Car) :
    s.rested.record c = s.record c := by
  rw [State.rested_record]
  rcases h with h | h | h
  · rw [State.takeRest_of_still (.inl h), State.testBoth_of_not_dwell (by simp [h])]
  · rw [State.takeRest_of_still (.inr (.inr (.inl h))), State.testBoth_of_not_dwell (by simp [h])]
  · rw [State.takeRest_of_tripped h]
    exact State.testBoth_of_not_dwell (s := s.beginWait) (by simp [State.beginWait, h]) c

/-- In DWELL at rest the berthed conditions are the berth and the link (R120). -/
theorem State.berthedTest_at_rest {s : State} (hl : s.haul.line = .dwell) (hr : s.atRest = true) (c : Car)
    (q : StopRecord) :
    s.berthedTest c q = if q.phase = .arrived ∧ s.geo.inspection = false then
      arrivedRecord s c (s.berthed c q.station && (s.car c).live) q else q := by
  simp [State.berthedTest, State.berthedConditions, hl, hr]

/-- In DWELL each ARRIVED record is tested (R120). -/
theorem State.rested_in_dwell {s : State} (hl : s.haul.line = .dwell) (hr : s.atRest = true) {c : Car} {q : StopRecord}
    (hq : s.record c = some q) :
    let tested := arrivedRecord s c (s.berthed c q.station && (s.car c).live) q
    s.rested.record c = some (if q.phase = .arrived ∧ s.geo.inspection = false then tested else q)
      ∧ (q.phase = .arrived → s.geo.inspection = false → tested.phase ≠ .arrived →
        hasAttention s.rested .stopPhase = true) := by
  intro tested
  have test : s.berthedTest c q = if q.phase = .arrived ∧ s.geo.inspection = false then tested else q :=
    State.berthedTest_at_rest hl hr c q
  have still : s.takeRest = s := State.takeRest_of_still (.inr (.inl hl))
  refine ⟨?_, fun hp hi ht => ?_⟩
  · rw [State.rested_record, still, State.testBoth_record, hq, Option.map_some, test]
  · rw [if_pos ⟨hp, hi⟩] at test
    have changes : s.berthedTest c q ≠ q := fun h => ht (by rw [← test, h, hp])
    rw [State.rested, still]
    exact (State.deriveBoarding_touches _).2.hasAttention (State.testBoth_raises hq changes)

/-! ### The standstill timer -/

theorem State.startRestTimer_eq (s : State) :
    s.startRestTimer = { s with spd := { s.spd with
      restDue := if s.spd.rope.capture = .standstill ∧ s.spd.drive.capture = .standstill then
        some (s.now + ms (s.par 0x23)) else s.spd.restDue } } := by
  unfold State.startRestTimer
  split <;> rfl

/-- A channel that stands: its speed is 0 (R23). -/
def State.stood (s : State) (ch : Channel) : State := s.setChan ch (s.chan ch).stand

theorem execStandstillTimeout_of_due {s : State} {ch : Channel} {due : Nat} (h : (s.chan ch).standDue = some due) :
    execStandstillTimeout ch s
      = .next (((((s.advance due).stood ch).publish ch).startRestTimer).deriveBoarding) := by
  simp only [execStandstillTimeout, h]
  rfl

/-- The channel that is not named. -/
def otherChannel : Channel → Channel
  | .rope => .drive
  | .drive => .rope

theorem State.stood_chan (s : State) (ch : Channel) :
    (s.stood ch).chan ch = (s.chan ch).stand ∧ (s.stood ch).chan (otherChannel ch) = s.chan (otherChannel ch) := by
  cases ch <;> exact ⟨rfl, rfl⟩

/-- A stop changes no field but the channel's own. -/
theorem State.stood_kept (s : State) (ch : Channel) :
    (s.stood ch).haul = s.haul ∧ (s.stood ch).osb = s.osb ∧ (s.stood ch).params = s.params ∧ (s.stood ch).now = s.now
      ∧ samePart .slip s (s.stood ch) ∧ samePart .rest s (s.stood ch) := by
  cases ch <;> exact ⟨rfl, rfl, rfl, rfl, ⟨rfl, rfl, rfl⟩, ⟨rfl, rfl⟩⟩

/-- With one channel standing v_meas is the other's speed (R25). -/
theorem State.stood_speed (s : State) (ch : Channel) :
    max (s.stood ch).spd.rope.speed (s.stood ch).spd.drive.speed = (s.chan (otherChannel ch)).speed := by
  cases ch with
  | rope => exact Nat.zero_max _
  | drive => exact Nat.max_zero _

/-- The rollback test is not met by a channel that stands (R29). -/
theorem State.stood_rollbackMet (s : State) : (s.stood .rope).rollbackMet = false := by
  have stands : (s.stood .rope).spd.rope.capture = .standstill := rfl
  simp [State.rollbackMet, stands]

theorem State.stood_publishRolls (s : State) (ch : Channel) : (s.stood ch).publishRolls ch = false := by
  cases ch with
  | rope => simp [State.publishRolls, State.rollsBack, s.stood_rollbackMet]
  | drive => rfl

/-- Both channels stand after one has stopped exactly where the other stood (R26). -/
theorem State.stood_both (s : State) (ch : Channel) :
    (s.stood ch).spd.rope.capture = .standstill ∧ (s.stood ch).spd.drive.capture = .standstill
      ↔ (s.chan (otherChannel ch)).capture = .standstill := by
  cases ch with
  | rope => exact and_iff_right rfl
  | drive => exact and_iff_left rfl

/-- The expiry of a standstill timer (R23, R25 to R29, R92 to R94). -/
theorem State.standstill_expires (s : State) (ch : Channel) :
    let t := (((s.stood ch).publish ch).startRestTimer).deriveBoarding
    let other := otherChannel ch
    t.now = s.now ∧ boardingInv t ∧ t.chan ch = (s.chan ch).stand ∧ t.chan other = s.chan other
      ∧ t.spd.vMeas = (s.chan other).speed ∧ t.spd.restSince = s.spd.restSince
      ∧ slipTested s t ∧ (ch = .rope → t.spd.rollback = false)
      ∧ comparisonLeaves s.haul.line (s.chan other).speed s.haul.vPerm s.osb s t
      ∧ (s.haul.line = .moving → t.haul.line = .moving → t.haul.vDem = s.haul.vDem)
      ∧ t.spd.restDue = (if (s.chan other).capture = .standstill then some (s.now + ms (s.par 0x23))
          else s.spd.restDue) := by
  obtain ⟨haul, osb, params, time, slip, since, due⟩ := s.stood_kept ch
  obtain ⟨own, others⟩ := s.stood_chan ch
  have rolls := s.stood_publishRolls ch
  have leaves := State.publish_leaves rolls
  have vDem := State.publish_vDem rolls
  rw [s.stood_speed, haul, osb] at leaves
  rw [haul] at vDem
  have par : ((s.stood ch).publish ch).par 0x23 = s.par 0x23 :=
    State.par_congr ((((s.stood ch).publish_touches ch).1 .params (by decide)).symm.trans params) _
  intro t other
  have inv : boardingInv t := State.deriveBoarding_boardingInv _
  obtain ⟨b, p, e⟩ := (((s.stood ch).publish ch).startRestTimer).deriveBoarding_eq
  have et : t = _ := e
  rw [State.startRestTimer_eq] at et
  rw [et] at inv ⊢
  have chan (k : Channel) (x : SpeedChannel) (hx : ((s.stood ch).publish ch).chan k = x) (d : Option Nat)
      (a : AdmState) :
      ({ (s.stood ch).publish ch with spd := { ((s.stood ch).publish ch).spd with restDue := d }, adm := a } :
        State).chan k = x := by
    cases k <;> exact hx
  refine ⟨(State.publish_now _ ch).trans time, inv, chan _ _ ((State.publish_chan _ ch ch).trans own) _ _,
    chan _ _ ((State.publish_chan _ ch other).trans others) _ _, (State.publish_vMeas _ ch).trans (s.stood_speed ch),
    (State.publish_restSince _ ch).trans since.symm,
    (State.publish_slipTested _ ch).congr slip params.symm ⟨rfl, rfl, rfl⟩ rfl rfl rfl, ?rollback,
    leaves.congr osb.symm params.symm rfl rfl rfl, vDem, ?restDue⟩
  case rollback =>
    rintro rfl
    exact (State.publish_rope_rollback _).trans (by rw [s.stood_rollbackMet, Bool.false_and])
  case restDue =>
    show (if _ then _ else _) = _
    simp only [State.publish_rope, State.publish_drive, State.publish_now, State.publish_restDue, time, par,
      s.stood_both ch, ← due]
    rfl

/-- Settles O47: the standstill timer by what a publication leaves of a stopped channel, the rest timer by what each
line state makes of the coming to rest. -/
theorem speedTimersExpire : Obligations.SpeedTimersExpire := by
  intro s due now
  refine ⟨fun ch h => ?standstill, fun h => ?rest⟩
  case standstill =>
    have expires := (s.advance due).standstill_expires ch
    refine ⟨_, execStandstillTimeout_of_due h, ?_⟩
    cases ch <;> exact expires
  case rest =>
    intro u
    have kept := u.rested_touches.1
    have still (h : u.takeRest = u) := (State.rested_of_still h).1
    obtain ⟨since, timer⟩ : _ ∧ _ := kept .rest (by decide)
    have atRest : u.atRest = true := rfl
    refine ⟨u.rested, execRestConfirm_of_due h, (kept .time (by decide)).symm, State.deriveBoarding_boardingInv _,
      since.symm, timer.symm, fun hl k hk => ?_, fun hl hk => ?_, fun hl hk => ?_,
      fun hl => State.rested_of_tripped (s := u) hl atRest, fun hl => ?_,
      State.rested_records (s := u), fun hl c q => State.rested_in_dwell (s := u) hl atRest⟩
    · rw [State.rested, State.takeRest_of_berthed (s := u) hl hk]
      exact u.enterDwell_entered k
    · rw [State.rested, State.takeRest_off_berth (s := u) hl hk]
      exact u.enterHalted_entered .offBerth
    · have same := still (State.takeRest_of_still (.inr (.inr (.inr ⟨hl, hk⟩))))
      have line : u.haul.line = u.rested.haul.line := same .line (by decide)
      exact ⟨line.symm.trans hl, (same .haltCause (by decide)).symm, (same .run (by decide)).symm⟩
    · have same := still (State.takeRest_of_still (by rcases hl with hl | hl | hl <;> simp [u, hl]))
      exact ⟨(same .line (by decide)).symm, (same .run (by decide)).symm⟩

end Sys2Proof.Machine
end

-- ==== The service clock and the boundary passes ====
section
/-! What the service clock and the boundary passes leave: the ended list after one more record, the table and the ended
list after an expiry pass over the first entries, and the two commands that make the passes (R32 to R35, R45); with the
reads of the clock and of a parameter (R34, R182). -/

namespace Sys2Proof.Machine

/-! ### Reads of the clock and of a parameter -/

/-- A row found by its number stands in the table under that number. -/
theorem paramRow_some {n : Nat} {r : ParamRow} (h : paramRow n = some r) : r ∈ paramTable ∧ r.number = n :=
  ⟨List.mem_of_find?_eq_some h, by simpa using List.find?_some h⟩

theorem getParameter_of_none {x : Byte} (s : State) (h : paramRow x.toNat = none) :
    getParameter x s = answeredOnly s .badParameter 0x04 [] := by
  simp only [getParameter, h]
  rfl

theorem getParameter_of_some {x : Byte} (s : State) {r : ParamRow} (h : paramRow x.toNat = some r) :
    getParameter x s
      = answeredOnly s .ok 0x04
          (sbe4 (paramGet s.params x.toNat) ++ [if r.classS then 0 else 1] ++ sbe4 r.min ++ sbe4 r.max) := by
  have code : be1 (classCode r.classS) = [if r.classS then 0 else 1] := by cases r.classS <;> rfl
  simp only [getParameter, h, code]
  rfl

/-- Settles O17: both commands only answer, and an unset clock stands at day 0, minute 0. -/
theorem clockAndParameterReadsReturnWhatStands : Obligations.ClockAndParameterReadsReturnWhatStands := by
  intro x s
  refine ⟨rfl, fun inv unset => ?unset, fun h => congrArg _ (getParameter_of_none s h), fun r h => ?row⟩
  case unset =>
    obtain ⟨-, -, stands⟩ := inv
    obtain ⟨day, minute, -⟩ := stands unset
    show Host.Outcome.next (answeredOnly s .ok 0x02 (flag1 s.tsr.clockSet ++ be2 s.tsr.day ++ be2 s.tsr.minute)) = _
    rw [unset, day, minute]
    rfl
  case row =>
    obtain ⟨listed, number⟩ := paramRow_some h
    exact ⟨listed, number, congrArg _ (getParameter_of_some s h)⟩

/-! ### One entry -/

theorem State.entry_setEntry (s : State) (n m : Nat) (x : Option Restriction) :
    (s.setEntry n x).entry m = if n = m ∧ n < s.tsr.table.length then x else s.entry m := by
  simp only [State.entry, State.setEntry_table, List.getD_eq_getElem?_getD, List.getElem?_set]
  split <;> split <;> simp_all

theorem State.entry_setEntry_same {s : State} {n : Nat} (h : n < s.tsr.table.length) (x : Option Restriction) :
    (s.setEntry n x).entry n = x := by
  rw [State.entry_setEntry, if_pos ⟨rfl, h⟩]

theorem State.entry_setEntry_other (s : State) {n m : Nat} (h : m ≠ n) (x : Option Restriction) :
    (s.setEntry n x).entry m = s.entry m := by
  rw [State.entry_setEntry, if_neg fun k => h k.1.symm]

/-- A number beyond the table names no entry. -/
theorem State.lt_of_entry {s : State} {n : Nat} {r : Restriction} (h : s.entry n = some r) :
    n < s.tsr.table.length := by
  by_contra beyond
  rw [State.entry, List.getD_eq_default _ _ (Nat.not_lt.mp beyond)] at h
  cases h

/-- An absent time is not due, and one given is due when its count is not above the clock's. -/
theorem State.due_getD_false (s : State) (t : Option ServiceTime) :
    (t.map s.due).getD false = decide (∃ f ∈ t, f.count ≤ s.time.count) := by
  cases t <;> simp [State.due]

/-! ### The ended list -/

theorem lastEight_length (l : List EndedRecord) : (lastEight l).length = min l.length 8 := by
  simp only [lastEight, List.length_drop]
  omega

theorem lastEight_of_le {l : List EndedRecord} (h : l.length ≤ 8) : lastEight l = l := by
  simp [lastEight, Nat.sub_eq_zero_of_le h]

/-- One more record joins the last eight, the oldest leaving where there are eight already. -/
theorem lastEight_concat (l : List EndedRecord) (r : EndedRecord) :
    lastEight (l ++ [r]) = if l.length < 8 then lastEight l ++ [r] else (lastEight l).drop 1 ++ [r] := by
  split
  case isTrue short =>
    rw [lastEight_of_le (l := l) (by omega), lastEight_of_le (by simpa using short)]
  case isFalse full =>
    have one : l.length + 1 - 8 = l.length - 8 + 1 := by omega
    simp only [lastEight, List.length_append, List.length_singleton, List.drop_drop, one]
    exact List.drop_append_of_le_length (by omega)

/-- A list that holds the last eight of its records so far holds the last eight after one more, and the overflow flag
says whether a record has been dropped (R45). -/
theorem State.appendEnded_eq {s : State} {l : List EndedRecord} (h : s.tsr.ended = lastEight l) (r : EndedRecord) :
    s.appendEnded r = { s with tsr := { s.tsr with
      ended := lastEight (l ++ [r]), overflow := s.tsr.overflow || decide (8 ≤ l.length) } } := by
  have short : s.tsr.ended.length < 8 ↔ l.length < 8 := by
    rw [h, lastEight_length]
    omega
  rw [State.appendEnded, if_congr short rfl rfl, lastEight_concat, h]
  by_cases few : l.length < 8
  · rw [if_pos few, if_pos few, decide_eq_false (by omega), Bool.or_false]
  · rw [if_neg few, if_neg few, decide_eq_true (by omega), Bool.or_true]

/-! ### The expiry pass -/

/-- The ended record of an entry that an expiry pass retires. -/
def State.endedAt (s : State) (n : Nat) : Option EndedRecord :=
  (s.entry n).bind fun r => if s.expired r then some ⟨n, r.label, s.time⟩ else none

/-- What an expiry pass leaves of an entry. -/
def State.outlived (s : State) (x : Option Restriction) : Option Restriction := x.filter fun r => !s.expired r

theorem State.expire_eq (s : State) (n : Nat) :
    s.expire n = match s.endedAt n with
      | some e => ((s.setEntry n none).appendEnded e).raise .restrictionEnded
      | none => s := by
  rw [State.expire, State.endedAt]
  cases s.entry n with
  | none => rfl
  | some r => cases out : s.expired r <;> simp [out]

/-- An expiry pass frees the entries that it records, and leaves the others as they are. -/
theorem State.outlived_entry (s : State) (n : Nat) :
    s.outlived (s.entry n) = if (s.endedAt n).isSome then none else s.entry n := by
  rw [State.outlived, State.endedAt]
  cases s.entry n with
  | none => rfl
  | some r => cases out : s.expired r <;> simp [out]

/-- The ended records of the entries below k that an expiry pass retires. -/
def State.endedBelow (s : State) (k : Nat) : List EndedRecord := (List.range k).filterMap s.endedAt

theorem State.endedBelow_succ (s : State) (k : Nat) :
    s.endedBelow (k + 1) = s.endedBelow k ++ (s.endedAt k).toList := by
  simp only [State.endedBelow, List.range_succ, List.filterMap_append]
  cases h : s.endedAt k <;> simp [h]

/-- The table after the expiry pass over the entries below k. -/
def State.tableBelow (s : State) (k : Nat) : List (Option Restriction) :=
  s.tsr.table.mapIdx fun n x => if n < k then s.outlived x else x

theorem State.tableBelow_zero (s : State) : s.tableBelow 0 = s.tsr.table :=
  List.ext_getElem (by simp [State.tableBelow]) fun n _ _ => by simp [State.tableBelow]

theorem State.tableBelow_succ (s : State) (k : Nat) :
    s.tableBelow (k + 1) = (s.tableBelow k).set k (s.outlived (s.entry k)) := by
  refine List.ext_getElem (by simp [State.tableBelow]) fun n here _ => ?_
  simp only [State.tableBelow, List.length_mapIdx] at here
  simp only [State.tableBelow, List.getElem_set, List.getElem_mapIdx]
  by_cases own : k = n
  · subst own
    simp [State.entry, here]
  · have same : n < k + 1 ↔ n < k := by omega
    simp only [own, if_false, same]

/-- Entry k stands after the pass over the entries below it. -/
theorem State.tableBelow_getD (s : State) (k : Nat) : (s.tableBelow k).getD k none = s.entry k := by
  simp only [State.entry, State.tableBelow, List.getD_eq_getElem?_getD, List.getElem?_mapIdx, Nat.lt_irrefl, if_false]
  cases s.tsr.table[k]? <;> rfl

/-- Writing an entry as it stands changes nothing. -/
theorem set_getD_self {α : Type} (l : List α) (n : Nat) (x : α) : l.set n (l.getD n x) = l := by
  by_cases h : n < l.length
  · rw [List.getD_eq_getElem _ _ h, List.set_getElem_self]
  · exact List.set_eq_of_length_le (Nat.not_lt.mp h)

/-- What the expiry pass over the entries below k has left of the state before it. -/
structure ExpiredBelow (k : Nat) (s t : State) : Prop where
  time : t.time = s.time
  table : t.tsr.table = s.tableBelow k
  ended : t.tsr.ended = lastEight (s.tsr.ended ++ s.endedBelow k)
  overflow : t.tsr.overflow = (s.tsr.overflow || decide (8 < (s.tsr.ended ++ s.endedBelow k).length))
  attention : t.lnk.attention
    = s.lnk.attention ||| (if s.endedBelow k = [] then 0 else attentionMask .restrictionEnded)

theorem ExpiredBelow.zero {s : State} (h : s.tsr.ended.length ≤ 8) : ExpiredBelow 0 s s where
  time := rfl
  table := s.tableBelow_zero.symm
  ended := by simp [State.endedBelow, lastEight_of_le h]
  overflow := by simp [State.endedBelow, h]
  attention := by simp [State.endedBelow]

theorem ExpiredBelow.endedAt {k : Nat} {s t : State} (h : ExpiredBelow k s t) : t.endedAt k = s.endedAt k := by
  have entry : t.entry k = s.entry k := by rw [State.entry, h.table, s.tableBelow_getD]
  have due : t.due = s.due := funext fun u => by rw [State.due, State.due, h.time]
  have expired : t.expired = s.expired := funext fun r => by rw [State.expired, State.expired, due]
  rw [State.endedAt, State.endedAt, entry, expired, h.time]

theorem ExpiredBelow.succ {k : Nat} {s t : State} (h : ExpiredBelow k s t) : ExpiredBelow (k + 1) s (t.expire k) := by
  have table := s.tableBelow_succ k
  have records := s.endedBelow_succ k
  rw [s.outlived_entry] at table
  rw [t.expire_eq, h.endedAt]
  cases found : s.endedAt k with
  | none =>
    rw [found, Option.isSome_none, if_neg Bool.false_ne_true, ← s.tableBelow_getD, set_getD_self] at table
    rw [found, Option.toList_none, List.append_nil] at records
    exact ⟨h.time, table ▸ h.table, records ▸ h.ended, records ▸ h.overflow, records ▸ h.attention⟩
  | some e =>
    rw [found, Option.isSome_some, if_pos rfl, ← h.table] at table
    rw [found, Option.toList_some] at records
    have appended := State.appendEnded_eq (s := t.setEntry k none) h.ended e
    dsimp only
    rw [appended]
    refine ⟨h.time, table.symm, ?ended, ?overflow, ?attention⟩
    case ended =>
      rw [records, ← List.append_assoc]
      rfl
    case overflow =>
      show (t.tsr.overflow || _) = _
      rw [h.overflow, records, Bool.or_assoc, ← Bool.decide_or]
      refine congrArg _ (decide_eq_decide.mpr ?_)
      simp only [List.length_append, List.length_singleton]
      omega
    case attention =>
      show t.lnk.attention ||| _ = _
      rw [h.attention, records, if_neg (List.append_ne_nil_of_right_ne_nil _ (List.cons_ne_nil e [])), BitVec.or_assoc]
      split
      · exact congrArg _ BitVec.zero_or
      · rw [BitVec.or_self]

theorem State.expiredBelow_foldl {s : State} (h : s.tsr.ended.length ≤ 8) (k : Nat) :
    ExpiredBelow k s ((List.range k).foldl State.expire s) := by
  induction k with
  | zero => exact ExpiredBelow.zero h
  | succ k ih =>
    rw [List.range_succ, List.foldl_append]
    exact ih.succ

/-! ### The boundary passes -/

/-- The two passes over one entry are what the passes leave of it. -/
theorem State.outlived_pendingEntry (s : State) (x : Option Restriction) :
    s.pendingPass.outlived (x.map s.pendingEntry) = entryAfterPasses s.time x := by
  cases x with
  | none => rfl
  | some r =>
    have pending : s.pendingEntry r
        = { r with inForce := r.inForce || decide (∃ f ∈ r.fromTime, f.count ≤ s.time.count) } := by
      rw [State.pendingEntry, s.due_getD_false]
    have out : s.pendingPass.expired (s.pendingEntry r)
        = decide ((s.pendingEntry r).inForce = true ∧ ∃ u ∈ r.untilTime, u.count ≤ s.time.count) := by
      rw [State.expired, Bool.decide_and, Bool.decide_eq_true]
      exact congrArg _ (s.due_getD_false r.untilTime)
    rw [State.outlived, Option.map_some, Option.filter_some, out, pending]
    simp only [entryAfterPasses, Option.bind_some, Bool.not_eq_true', decide_eq_false_iff_not, ite_not]

theorem State.entry_pendingPass (s : State) (n : Nat) : s.pendingPass.entry n = (s.entry n).map s.pendingEntry := by
  simp only [State.entry, State.pendingPass, List.getD_eq_getElem?_getD, List.getElem?_map]
  cases s.tsr.table[n]? <;> rfl

/-- The records that the expiry pass makes after the pending pass are those of the entries that the passes retire. -/
theorem State.endedBelow_pendingPass (s : State) :
    s.pendingPass.endedBelow 32 = expiredRecords s.time s.tsr.table := by
  refine List.filterMap_congr fun n _ => ?_
  show (s.pendingPass.entry n).bind _ = (s.entry n).bind _
  rw [s.entry_pendingPass]
  cases s.entry n with
  | none => rfl
  | some r =>
    have left := s.outlived_pendingEntry (some r)
    rw [State.outlived, Option.map_some, Option.filter_some] at left
    rw [Option.map_some, Option.bind_some, Option.bind_some, ← left]
    cases s.pendingPass.expired (s.pendingEntry r) <;> rfl

/-- The table after the expiry pass over every entry, after the pending pass. -/
theorem State.tableBelow_pendingPass {s : State} (length : s.tsr.table.length = 32) :
    s.pendingPass.tableBelow 32 = s.tsr.table.map (entryAfterPasses s.time) := by
  refine List.ext_getElem (by simp [State.tableBelow, State.pendingPass]) fun n _ there => ?_
  have inside : n < 32 := by simpa [length] using there
  simp only [State.tableBelow, List.getElem_mapIdx, if_pos inside, List.getElem_map, ← s.outlived_pendingEntry]
  simp only [State.pendingPass, List.getElem_map]

/-- What the boundary passes at a time leave of the table, the ended list and the attention set (R35, R45). -/
structure PassesMade (now : ServiceTime) (s t : State) : Prop where
  table : t.tsr.table = s.tsr.table.map (entryAfterPasses now)
  ended : t.tsr.ended = lastEight (s.tsr.ended ++ expiredRecords now s.tsr.table)
  overflow : t.tsr.overflow
    = (s.tsr.overflow || decide (8 < s.tsr.ended.length + (expiredRecords now s.tsr.table).length))
  attention : t.lnk.attention = s.lnk.attention |||
    (if expiredRecords now s.tsr.table = [] then 0 else attentionMask .restrictionEnded)

theorem State.boundaryPasses_made {s : State} (ended : s.tsr.ended.length ≤ 8) (length : s.tsr.table.length = 32) :
    PassesMade s.time s s.boundaryPasses := by
  have pass : ExpiredBelow 32 s.pendingPass s.boundaryPasses := State.expiredBelow_foldl (s := s.pendingPass) ended 32
  obtain ⟨-, table, list, overflow, attention⟩ := pass
  rw [State.endedBelow_pendingPass] at list overflow attention
  rw [State.tableBelow_pendingPass length] at table
  rw [List.length_append] at overflow
  exact ⟨table, list, overflow, attention⟩

theorem State.boundaryPasses_now (s : State) : s.boundaryPasses.now = s.now := by
  have kept : samePart .time s s.boundaryPasses := s.boundaryPasses_touches.1 .time (by decide)
  exact kept.symm

/-! ### SET CLOCK and MINUTE_BOUNDARY -/

/-- The state with the clock at a time, its next boundary due at a time of the timebase. -/
def State.withClock (s : State) (set : Bool) (now : ServiceTime) (due : Nat) : State :=
  { s with tsr := { s.tsr with clockSet := set, day := now.day, minute := now.minute, minuteDue := some due } }

/-- What a clock set to a time, with the passes made at it, leaves of TSR and of the attention set. -/
structure ClockMoved (set : Bool) (now : ServiceTime) (due : Nat) (s t : State) : Prop extends PassesMade now s t where
  clockSet : t.tsr.clockSet = set
  day : t.tsr.day = now.day
  minute : t.tsr.minute = now.minute
  minuteDue : t.tsr.minuteDue = some due

theorem ClockMoved.reply {set : Bool} {now : ServiceTime} {due : Nat} {s t : State} (h : ClockMoved set now due s t)
    (c : Byte) (rc : ResultCode) (d : List Byte) : ClockMoved set now due s (t.reply c rc d) :=
  ⟨⟨h.table, h.ended, h.overflow, h.attention⟩, h.clockSet, h.day, h.minute, h.minuteDue⟩

theorem State.withClock_moved {s : State} (ended : s.tsr.ended.length ≤ 8) (length : s.tsr.table.length = 32)
    (set : Bool) (now : ServiceTime) (due : Nat) :
    ClockMoved set now due s (s.withClock set now due).boundaryPasses := by
  have made := State.boundaryPasses_made (s := s.withClock set now due) ended length
  obtain ⟨flag, day, minute, next⟩ : samePart .clock (s.withClock set now due) _ :=
    (State.boundaryPasses_touches _).1 .clock (by decide)
  exact ⟨⟨made.table, made.ended, made.overflow, made.attention⟩, flag.symm, day.symm, minute.symm, next.symm⟩

theorem setClock_of_bad {a : ClockArgs} (s : State) (h : 1439 < a.minute.toNat) :
    setClock a s = s.reply 0x01 .badParameter [] := if_pos h

theorem setClock_of_good {a : ClockArgs} (s : State) (h : a.minute.toNat ≤ 1439) :
    setClock a s
      = ((s.withClock true ⟨a.day.toNat, a.minute.toNat⟩ (s.now + 60000000)).boundaryPasses).reply 0x01 .ok [] :=
  if_neg (Nat.not_lt.mpr h)

/-- The service time a minute later (R32). -/
def nextMinute (t : ServiceTime) : ServiceTime := if t.minute = 1439 then ⟨t.day + 1, 0⟩ else ⟨t.day, t.minute + 1⟩

/-- At the last minute of the last day the count stops. -/
theorem execMinuteBoundary_of_last {s : State} {due : Nat} (h : s.tsr.minuteDue = some due)
    (last : s.tsr.day = 65535 ∧ s.tsr.minute = 1439) :
    execMinuteBoundary s = .next { s with now := max s.now due, tsr := { s.tsr with minuteDue := none } } := by
  simp only [execMinuteBoundary, h]
  exact congrArg _ (if_pos last)

/-- At any other minute the clock goes on to the next, and the passes are made. -/
theorem execMinuteBoundary_of_not_last {s : State} {due : Nat} (h : s.tsr.minuteDue = some due)
    (more : ¬(s.tsr.day = 65535 ∧ s.tsr.minute = 1439)) :
    execMinuteBoundary s
      = .next ((s.advance due).withClock s.tsr.clockSet (nextMinute s.time) (due + 60000000)).boundaryPasses := by
  simp only [execMinuteBoundary, h]
  refine congrArg _ ((if_neg more).trans (congrArg State.boundaryPasses ?_))
  by_cases top : s.tsr.minute = 1439 <;> simp [State.withClock, nextMinute, State.time, top]

/-- Settles O19: both commands set the clock and then make the passes, and what the passes leave is that of the expiry
pass over all entries after the pending pass. -/
theorem setClockAndMinuteBoundaryMakeThePasses : Obligations.SetClockAndMinuteBoundaryMakeThePasses := by
  refine ⟨fun a s => ⟨fun bad => ?bad, fun good ended length => ?set⟩,
    fun s due h _ ended length => ⟨execMinuteBoundary_of_last h, fun more => ?boundary⟩⟩
  case bad =>
    have run : exec (.setClock (.fields a)) s = .next (s.reply 0x01 .badParameter []) :=
      congrArg Host.Outcome.next (setClock_of_bad s bad)
    exact ⟨_, run, State.reply_answered _ _ _ _, (s.reply_touches _ _ _).1⟩
  case set =>
    intro now gone
    have run : exec (.setClock (.fields a)) s
        = .next ((s.withClock true now (s.now + 60000000)).boundaryPasses.reply 0x01 .ok []) :=
      congrArg Host.Outcome.next (setClock_of_good s good)
    have moved := (State.withClock_moved ended length true now (s.now + 60000000)).reply 0x01 .ok []
    exact ⟨_, run, State.reply_answered _ _ _ _, (execSetClock_touches _ s _ run).1, moved.clockSet, moved.day,
      moved.minute, moved.minuteDue, moved.table, moved.ended, moved.overflow, moved.attention⟩
  case boundary =>
    intro now gone
    have run : exec .minuteBoundary s
        = .next ((s.advance due).withClock s.tsr.clockSet now (due + 60000000)).boundaryPasses :=
      execMinuteBoundary_of_not_last h more
    have moved := State.withClock_moved (s := s.advance due) ended length s.tsr.clockSet now (due + 60000000)
    exact ⟨_, run, (execMinuteBoundary_touches s _ run).1, State.boundaryPasses_now _, moved.clockSet, moved.day,
      moved.minute, moved.minuteDue, moved.table, moved.ended, moved.overflow, moved.attention⟩

end Sys2Proof.Machine
end

-- ==== Speed restrictions ====
section
/-! ADD, AMEND, RETIRE and READ RESTRICTION: the checks in order and the one entry, or the ended list, that each acts on
(R40 to R45). -/

namespace Sys2Proof.Machine

/-! ### ADD RESTRICTION -/

theorem restrictionDirOf_eq_none {x : Byte} : restrictionDirOf x = none ↔ 2 < x.toNat := by
  simp only [restrictionDirOf]
  repeat' split
  all_goals simp_all
  bv_omega

/-- A code that names a direction is the code of that direction. -/
theorem restrictionDirCode_of_dirOf {x : Byte} {d : RestrictionDir} (h : restrictionDirOf x = some d) :
    restrictionDirCode d = x.toNat := by
  simp only [restrictionDirOf] at h
  repeat' split at h
  all_goals cases h
  all_goals simp_all [restrictionDirCode]

/-- A time given is good where its minute is, and one not given always. -/
theorem minuteGood_given (p : Bool) (t : ServiceTime) :
    minuteGood (if p then some t else none) = !(p && decide (1439 < t.minute)) := by
  cases p
  · rfl
  · show decide (t.minute ≤ 1439) = !decide (1439 < t.minute)
    rw [← decide_not]
    exact decide_eq_decide.mpr Nat.not_lt.symm

/-- The times of R40 that are not in order, or already past. -/
theorem State.timesFail_iff (s : State) (f u : Bool) (x y : ServiceTime) :
    (!timesOrdered (if f then some x else none) (if u then some y else none)
        || ((if u then some y else none).map s.due).getD false) = true
      ↔ (f = true ∧ u = true ∧ y.count ≤ x.count) ∨ (u = true ∧ y.count ≤ s.time.count) := by
  cases f <;> cases u <;> simp [timesOrdered, State.due]

/-- The span clamped to [0, L] is empty exactly where the span starts at L or later, or ends where it starts. -/
theorem clamped_empty_iff (a b len : Nat) : min b len ≤ min a len ↔ len ≤ a ∨ b ≤ a := by omega

/-- The lowest FREE LINE slot: FREE, with every LINE slot below it in use (R41). -/
theorem State.freeLineSlot_eq_some {s : State} {n : Nat} :
    s.freeLineSlot = some n ↔ (6 ≤ n ∧ n < 32) ∧ s.entry n = none ∧ ∀ m, 6 ≤ m → m < n → (s.entry m).isSome := by
  simp only [State.freeLineSlot, List.find?_range_eq_some, List.mem_range, Bool.and_eq_true, decide_eq_true_eq,
    Option.isNone_iff_eq_none, Bool.not_and, Bool.or_eq_true, Bool.not_eq_true', decide_eq_false_iff_not,
    Option.not_isNone, ← imp_iff_not_or]
  exact ⟨fun ⟨⟨line, free⟩, inside, below⟩ => ⟨⟨line, inside⟩, free, fun m hm lt => below m lt hm⟩,
    fun ⟨⟨line, inside⟩, free, below⟩ => ⟨⟨line, free⟩, inside, fun m lt hm => below m hm lt⟩⟩

/-- No LINE slot is FREE exactly where the check of R40 finds all 26 in use. -/
theorem State.freeLineSlot_eq_none {s : State} :
    s.freeLineSlot = none ↔ ((List.range 26).all fun n => (s.entry (n + 6)).isSome) = true := by
  simp only [State.freeLineSlot, List.find?_range_eq_none, List.all_eq_true, List.mem_range, Bool.not_and,
    Bool.or_eq_true, Bool.not_eq_true', decide_eq_false_iff_not, Option.not_isNone, ← imp_iff_not_or]
  refine ⟨fun full n lt => full (n + 6) (by omega) (by omega), fun full n lt line => ?_⟩
  obtain ⟨k, rfl⟩ := Nat.exists_eq_add_of_le' line
  exact full k (by omega)

/-- ADD RESTRICTION makes its checks in the order of R40 and then writes the lowest FREE LINE slot. -/
theorem addRestriction_eq (a : AddRestrictionArgs) (s : State) :
    addRestriction a s = s.answerBy 0x50 (addRestrictionChecks a s)
      (match restrictionDirOf a.direction, s.freeLineSlot with
        | some d, some n => (s.setEntry n (some (s.addedEntry a d))).reply 0x50 .ok (be1 n)
        | _, _ => s) := by
  simp only [addRestriction, addRestrictionChecks, State.answerBy_cons, State.answerBy_nil]
  refine if_congr Iff.rfl rfl ?_
  cases dir : restrictionDirOf a.direction with
  | none =>
    have code := restrictionDirOf_eq_none.mp dir
    exact (if_pos (by simp [code])).symm
  | some d =>
    have code : ¬2 < a.direction.toNat := fun h => by simp [restrictionDirOf_eq_none.mpr h] at dir
    dsimp only
    refine if_congr ?ranges rfl (if_congr ?span rfl (if_congr ?clock rfl (if_congr ?times rfl ?place)))
    case ranges =>
      simp [AddRestrictionArgs.fromTime, AddRestrictionArgs.untilTime, minuteGood_given, code, or_assoc]
    case span => exact ((decide_eq_true_iff).trans (clamped_empty_iff _ _ _)).symm
    case clock =>
      simp [AddRestrictionArgs.fromTime, AddRestrictionArgs.untilTime]
    case times => exact (s.timesFail_iff _ _ _ _).trans decide_eq_true_iff.symm
    case place =>
      cases slot : s.freeLineSlot with
      | none => exact (if_pos (State.freeLineSlot_eq_none.mp slot)).symm
      | some n =>
        refine (if_neg fun full => ?_).symm
        rw [State.freeLineSlot_eq_none.mpr full] at slot
        cases slot

/-- The direction and the slot of an ADD that passes its checks. -/
theorem addRestriction_placed {a : AddRestrictionArgs} {s : State} (h : refusedBy (addRestrictionChecks a s) = none) :
    ∃ d n, restrictionDirOf a.direction = some d ∧ s.freeLineSlot = some n
      ∧ addRestriction a s = (s.setEntry n (some (s.addedEntry a d))).reply 0x50 .ok (be1 n) := by
  have eq := (addRestriction_eq a s).trans (State.answerBy_of_passed h)
  cases dir : restrictionDirOf a.direction with
  | none =>
    have fails := check_passed h (List.mem_cons_of_mem _ List.mem_cons_self)
    simp [restrictionDirOf_eq_none.mp dir] at fails
  | some d =>
    cases slot : s.freeLineSlot with
    | none =>
      have fails := check_passed h (List.mem_of_getLast? rfl)
      simp only [State.freeLineSlot_eq_none.mp slot] at fails
      cases fails
    | some n =>
      rw [dir, slot] at eq
      exact ⟨d, n, rfl, rfl, eq⟩

/-- An entry is IN FORCE at once where it has no from-time, or its from-time is due. -/
theorem State.due_getD_true (s : State) (t : Option ServiceTime) :
    (t.map s.due).getD true = decide (∀ f ∈ t, f.count ≤ s.time.count) := by
  cases t <;> simp [State.due]

/-- Settles O34: the first check that fails is answered and nothing else changes; with none failing, the lowest FREE
LINE slot takes the entry. -/
theorem addRestrictionTakesTheLowestFreeSlot : Obligations.AddRestrictionTakesTheLowestFreeSlot := by
  refine fun a s length => ⟨fun rc d h => ?refused, fun h => ?placed⟩
  case refused =>
    have run : exec (.addRestriction (.fields a)) s = .next (s.reply 0x50 rc d) :=
      congrArg Host.Outcome.next ((addRestriction_eq a s).trans (State.answerBy_of_refused h))
    exact ⟨_, run, State.reply_answered _ _ _ _, (s.reply_touches _ _ _).1⟩
  case placed =>
    obtain ⟨d, n, dir, slot, placed⟩ := addRestriction_placed h
    obtain ⟨⟨line, inside⟩, free, lowest⟩ := State.freeLineSlot_eq_some.mp slot
    have run : exec (.addRestriction (.fields a)) s = .next _ := congrArg Host.Outcome.next placed
    have there := State.entry_setEntry_same (length ▸ inside) (some (s.addedEntry a d))
    have frame := (execAddRestriction_touches _ s _ run).1
    exact ⟨_, n, s.addedEntry a d, run, be1_eq n ▸ State.reply_answered _ _ _ _, frame, line, inside, free, lowest, there,
      fun m other => s.entry_setEntry_other other _, rfl, rfl, rfl, restrictionDirCode_of_dirOf dir, rfl, rfl, rfl,
      s.due_getD_true _⟩

/-! ### AMEND RESTRICTION -/

/-- An until-time to be set that is not after the from-time, or is already past (R42). -/
theorem State.untilFails_iff (s : State) (r : Restriction) (t : ServiceTime) :
    (!timesOrdered r.fromTime (some t) || s.due t) = true
      ↔ (∃ f ∈ r.fromTime, t.count ≤ f.count) ∨ t.count ≤ s.time.count := by
  cases r.fromTime <;> simp [timesOrdered, State.due]

/-- A code that is no action, or a minute out of range given with SET, fails the ranges of R42. -/
theorem untilActionOf_eq_none {a : AmendRestrictionArgs} (h : untilActionOf a = none) :
    2 < a.action.toNat ∨ (a.action = 2 ∧ 1439 < a.untilMinute.toNat) := by
  simp only [untilActionOf] at h
  repeat' split at h
  all_goals simp_all
  bv_omega

/-- The action named by each code (R42). -/
theorem untilActionOf_eq_some {a : AmendRestrictionArgs} {act : UntilAction} (h : untilActionOf a = some act) :
    (act = .keep ∧ a.action = 0) ∨ (act = .remove ∧ a.action = 1)
      ∨ (act = .set ⟨a.untilDay.toNat, a.untilMinute.toNat⟩ ∧ a.action = 2 ∧ a.untilMinute.toNat ≤ 1439) := by
  simp only [untilActionOf] at h
  repeat' split at h
  all_goals cases h
  all_goals simp_all

/-- The entry that an AMEND leaves, read from its action code. -/
def State.amended (s : State) (a : AmendRestrictionArgs) (r : Restriction) : Restriction :=
  { r with
    limit := max a.limit.toNat s.creep
    untilTime := if a.action = 0 then r.untilTime else if a.action = 1 then none
      else some ⟨a.untilDay.toNat, a.untilMinute.toNat⟩ }

theorem State.amendedEntry_eq (s : State) {a : AmendRestrictionArgs} {act : UntilAction}
    (h : untilActionOf a = some act) (r : Restriction) : s.amendedEntry r a.limit.toNat act = s.amended a r := by
  rcases untilActionOf_eq_some h with ⟨rfl, code⟩ | ⟨rfl, code⟩ | ⟨rfl, code, -⟩ <;>
    simp [State.amendedEntry, State.amended, State.raisedLimit, code]

/-- AMEND RESTRICTION makes its checks in the order of R42 and then writes the entry as amended. -/
theorem amendRestriction_eq (a : AmendRestrictionArgs) (s : State) :
    amendRestriction a s = s.answerBy 0x51 (amendRestrictionChecks a s)
      (match s.entry a.entry.toNat with
        | some r => (s.setEntry a.entry.toNat (some (s.amended a r))).reply 0x51 .ok
            (restrictionBytes a.entry.toNat (some (s.amended a r)))
        | none => s) := by
  simp only [amendRestriction, amendRestrictionChecks, State.answerBy_cons, State.answerBy_nil]
  cases action : untilActionOf a with
  | none => exact (if_pos (decide_eq_true (.inr (.inr (untilActionOf_eq_none action))))).symm
  | some act =>
    have named := untilActionOf_eq_some action
    have code : ¬(2 < a.action.toNat ∨ (a.action = 2 ∧ 1439 < a.untilMinute.toNat)) := by
      rcases named with ⟨-, code⟩ | ⟨-, code⟩ | ⟨-, code, minute⟩
      · simp [code]
      · simp [code]
      · simpa [code] using minute
    refine if_congr ?ranges rfl (if_congr decide_eq_true_iff.symm rfl ?found)
    case ranges => simp only [decide_eq_true_eq, code, or_false]
    case found =>
      cases s.entry a.entry.toNat with
      | none => rfl
      | some r =>
        refine Eq.trans ?_ (if_neg Bool.false_ne_true).symm
        dsimp only
        rw [s.amendedEntry_eq action r]
        rcases named with ⟨rfl, code⟩ | ⟨rfl, code⟩ | ⟨rfl, code, -⟩
        · simp [code]
        · simp [code]
        · rw [code]
          refine if_congr Iff.rfl rfl (if_congr ((s.untilFails_iff r _).trans ?_) rfl rfl)
          simp [ServiceTime.count]

/-! ### RETIRE and READ RESTRICTION -/

theorem endedBytes_eq (e : EndedRecord) :
    endedBytes e
      = be1 e.entry ++ flag1 e.label.isSome ++ be2 (e.label.getD 0) ++ be2 e.time.day ++ be2 e.time.minute := by
  rw [endedBytes]
  cases e.label <;> rfl

/-- RETIRE of a LINE entry frees it where it is in use (R43). -/
theorem retireRestriction_line {x : Byte} (s : State) (line : 6 ≤ x.toNat) (inside : x.toNat ≤ 31) :
    retireRestriction x s = if (s.entry x.toNat).isSome then (s.setEntry x.toNat none).reply 0x52 .ok []
      else s.reply 0x52 .notFound [] := by
  refine ((if_neg (Nat.not_lt.mpr inside)).trans (if_neg (Nat.not_lt.mpr line))).trans ?_
  cases s.entry x.toNat <;> rfl

theorem TsrState.endedData_eq (x : TsrState) :
    x.endedData = flag1 x.overflow ++ be1 x.ended.length ++ (x.ended.flatMap fun e =>
      be1 e.entry ++ flag1 e.label.isSome ++ be2 (e.label.getD 0) ++ be2 e.time.day ++ be2 e.time.minute) := by
  rw [TsrState.endedData, funext endedBytes_eq]

/-- READ of the ended list returns it and empties it (R45). -/
theorem readRestriction_ended (s : State) :
    readRestriction 255 s
      = ({ s with tsr := { s.tsr with ended := [], overflow := false } }).reply 0x53 .ok s.tsr.endedData := rfl

/-- Settles O35: AMEND by its checks in order, RETIRE and READ by the range of the entry number. -/
theorem restrictionCommandsActOnOneEntry : Obligations.RestrictionCommandsActOnOneEntry := by
  refine fun s length => ⟨fun a rc d h => ?refused, fun a r h found => ?amended, fun x => ⟨fun beyond => ?beyond,
    fun owned => ?owned, fun line inside free => ?free, fun line used => ?retired, fun inside => ?read,
    fun beyond other => ?unread⟩, ?ended⟩
  case refused =>
    have run : exec (.amendRestriction (.fields a)) s = .next (s.reply 0x51 rc d) :=
      congrArg Host.Outcome.next ((amendRestriction_eq a s).trans (State.answerBy_of_refused h))
    exact ⟨_, run, State.reply_answered _ _ _ _, (s.reply_touches _ _ _).1⟩
  case amended =>
    have eq := (amendRestriction_eq a s).trans (State.answerBy_of_passed h)
    rw [found] at eq
    have run : exec (.amendRestriction (.fields a)) s = .next _ := congrArg Host.Outcome.next eq
    exact ⟨_, run, State.reply_answered _ _ _ _, (execAmendRestriction_touches _ s _ run).1,
      State.entry_setEntry_same (State.lt_of_entry found) _, fun m other => s.entry_setEntry_other other _⟩
  case beyond => exact ⟨_, congrArg Host.Outcome.next (if_pos beyond), State.reply_answered _ _ _ _⟩
  case owned =>
    have inside : ¬31 < x.toNat := by omega
    exact ⟨_, congrArg Host.Outcome.next ((if_neg inside).trans (if_pos owned)), State.reply_answered _ _ _ _⟩
  case free =>
    have none := retireRestriction_line s line inside
    rw [free] at none
    exact ⟨_, congrArg Host.Outcome.next none, State.reply_answered _ _ _ _⟩
  case retired =>
    obtain ⟨r, found⟩ := Option.isSome_iff_exists.mp used
    have inside := State.lt_of_entry found
    have freed := (retireRestriction_line s line (by omega)).trans (if_pos used)
    have run : exec (.retireRestriction (.fields x)) s = .next _ := congrArg Host.Outcome.next freed
    exact ⟨_, run, State.reply_answered _ _ _ _, (execRetireRestriction_touches _ s _ run).1,
      State.entry_setEntry_same inside _, fun m other => s.entry_setEntry_other other _⟩
  case read =>
    have run : exec (.readRestriction (.fields x)) s
        = .next (s.reply 0x53 .ok (restrictionBytes x.toNat (s.entry x.toNat))) :=
      congrArg Host.Outcome.next (if_pos (Nat.lt_succ_of_le inside))
    exact ⟨_, run, State.reply_answered _ _ _ _, (s.reply_touches _ _ _).1⟩
  case unread =>
    have unlisted : x.toNat ≠ 255 := fun h => other (BitVec.eq_of_toNat_eq h)
    exact ⟨_, congrArg Host.Outcome.next ((if_neg (Nat.not_lt.mpr beyond)).trans (if_neg unlisted)),
      State.reply_answered _ _ _ _⟩
  case ended =>
    have run : exec (.readRestriction (.fields 255)) s = .next _ := congrArg Host.Outcome.next (readRestriction_ended s)
    exact ⟨_, run, s.tsr.endedData_eq ▸ State.reply_answered _ _ _ _, (execReadRestriction_touches _ s _ run).1, rfl,
      rfl⟩

end Sys2Proof.Machine
end

-- ==== The status reads ====
section
/-! The status reads: each record is a row of blocks whose lengths are fixed, and each byte is read in its block (R61,
R133, R172, R189). -/

namespace Sys2Proof.Machine

/-! ### Bytes in a block -/

/-- A byte of a block is read within it. -/
theorem BlockAt.get {d b : List Byte} {off len : Nat} (h : BlockAt d b off len) (k : Nat) (hk : k < len) :
    d[off + k]? = b[k]? := by
  obtain ⟨pre, post, rfl, rfl, rfl⟩ := h
  rw [List.getElem?_append_right (Nat.le_add_right _ _), Nat.add_sub_cancel_left, List.getElem?_append_left hk]

/-- A group that may be absent takes its presence byte and its size in every case (R189). -/
theorem groupBytes_length {size : Nat} {l : Option (List Byte)} (h : ∀ x ∈ l, x.length = size) :
    (groupBytes size l).length = size + 1 := by
  cases l with
  | none => simp [groupBytes]
  | some x => simp [groupBytes, h x rfl]

theorem groupBytes_presence (size : Nat) (l : Option (List Byte)) :
    (groupBytes size l)[0]? = some (if l.isSome then 1 else 0) := by cases l <;> rfl

/-! ### READ STOP RECORD -/

theorem State.sinceBytes_of_fits {s : State} {t : Nat} (h : (s.now - t) / 1000 < 2 ^ 32) :
    s.sinceBytes t = be4 ((s.now - t) / 1000) := if_pos h

theorem State.sinceBytes_length (s : State) (t : Nat) : (s.sinceBytes t).length = 4 := by
  unfold State.sinceBytes
  dsimp only
  split <;> rfl

theorem State.reportData_length (s : State) (c : Car) (r : Report) : (s.reportData c r).length = 13 := by
  simp only [State.reportData, List.length_append, State.sinceBytes_length]
  rfl

/-- A stop record byte by byte (R133; log 15). -/
theorem State.recordData_eq (s : State) (c : Car) (r : StopRecord) :
    s.recordData c r
      = BitVec.ofNat 8 r.presence :: BitVec.ofNat 8 (carCode c) :: BitVec.ofNat 8 r.station
        :: BitVec.ofNat 8 (phaseCode r.phase) :: (be2 (r.wOpen.getD 0) ++ BitVec.ofNat 8 r.quota
        :: BitVec.ofNat 8 r.boarded :: BitVec.ofNat 8 r.held :: BitVec.ofNat 8 r.late :: (flag1 r.alarm
        ++ (flag1 r.doorFault ++ (flag1 r.suspended ++ (s.remainingBytes r.phaseDue ++ (s.remainingBytes r.closeDue
        ++ flag1 ((r.close.map fun x => !x.confirmed).getD false))))))) := by
  simp only [State.recordData, be1_eq, List.append_assoc, List.cons_append, List.nil_append]

theorem State.recordData_length (s : State) (c : Car) (r : StopRecord) : (s.recordData c r).length = 22 := by
  rw [State.recordData_eq]
  rfl

/-- The releases, the pending alarm, the load of admission and the kept sequence, after the groups (R133). -/
def State.stopTail (s : State) (c : Car) : List Byte :=
  flag1 (s.released c .left) ++ flag1 (s.car c).evacLeft ++ flag1 (s.released c .right) ++ flag1 (s.car c).evacRight
    ++ flag1 (s.car c).pendingAlarm ++ be2 (s.car c).admitted ++ [(s.car c).kept.headD 0]

/-- The group of the stop record, ahead of the rest. -/
abbrev State.recordGroup (s : State) (c : Car) : List Byte := groupBytes 22 ((s.record c).map (s.recordData c))

/-- The group of the last report. -/
abbrev State.reportGroup (s : State) (c : Car) : List Byte := groupBytes 13 ((s.car c).report.map (s.reportData c))

theorem State.stopData_eq (s : State) (c : Car) :
    s.stopData c
      = s.recordGroup c ++ (be1 (if (s.car c).live then 0 else 1) ++ (s.reportGroup c ++ s.stopTail c)) := by
  simp only [State.stopData, State.stopTail, State.recordGroup, State.reportGroup, State.record, List.append_assoc]

theorem State.recordGroup_length (s : State) (c : Car) : (s.recordGroup c).length = 23 :=
  groupBytes_length fun x h => by
    obtain ⟨r, -, rfl⟩ := Option.mem_map.mp h
    exact s.recordData_length c r

theorem State.reportGroup_length (s : State) (c : Car) : (s.reportGroup c).length = 14 :=
  groupBytes_length fun x h => by
    obtain ⟨r, -, rfl⟩ := Option.mem_map.mp h
    exact s.reportData_length c r

theorem State.stopData_record (s : State) (c : Car) : BlockAt (s.stopData c) (s.recordGroup c) 0 23 :=
  ⟨[], _, s.stopData_eq c, rfl, s.recordGroup_length c⟩

theorem State.stopData_live (s : State) (c : Car) :
    BlockAt (s.stopData c) (be1 (if (s.car c).live then 0 else 1)) 23 1 :=
  ⟨s.recordGroup c, _, s.stopData_eq c, s.recordGroup_length c, rfl⟩

theorem State.stopData_report (s : State) (c : Car) : BlockAt (s.stopData c) (s.reportGroup c) 24 14 :=
  ⟨s.recordGroup c ++ be1 (if (s.car c).live then 0 else 1), s.stopTail c,
    by rw [State.stopData_eq, List.append_assoc],
    by rw [List.length_append, State.recordGroup_length]; rfl, s.reportGroup_length c⟩

theorem State.stopData_tail (s : State) (c : Car) : BlockAt (s.stopData c) (s.stopTail c) 38 8 :=
  ⟨s.recordGroup c ++ (be1 (if (s.car c).live then 0 else 1) ++ s.reportGroup c), [],
    by simp only [State.stopData_eq, List.append_assoc, List.append_nil],
    by simp only [List.length_append, State.recordGroup_length, State.reportGroup_length]; rfl, rfl⟩

/-- The record has 46 bytes, whatever exists (R133, R189). -/
theorem State.stopData_length (s : State) (c : Car) : (s.stopData c).length = 46 := by
  simp only [State.stopData_eq, List.length_append, State.recordGroup_length, State.reportGroup_length]
  rfl

/-- The group of a stop record that is present. -/
theorem State.stopData_present {s : State} {c : Car} {r : StopRecord} (h : s.record c = some r) :
    BlockAt (s.stopData c) (1 :: s.recordData c r) 0 23 := by
  have block := s.stopData_record c
  rwa [State.recordGroup, h] at block

theorem execReadStopRecord_car {x : Byte} {c : Car} (h : carOf x = some c) (s : State) :
    exec (.readStopRecord (.fields x)) s = .next (s.reply 0x45 .ok (s.stopData c)) := by
  simp only [exec, execReadStopRecord, withForm, h]

theorem carOf_of_beyond {x : Byte} (h : 1 < x.toNat) : carOf x = none := by
  have zero : x ≠ 0 := by rintro rfl; exact absurd h (by decide)
  have one : x ≠ 1 := by rintro rfl; exact absurd h (by decide)
  rw [carOf, if_neg zero, if_neg one]

theorem execReadStopRecord_beyond {x : Byte} (h : 1 < x.toNat) (s : State) :
    exec (.readStopRecord (.fields x)) s = .next (s.reply 0x45 .badParameter []) := by
  simp only [exec, execReadStopRecord, withForm, carOf_of_beyond h]

/-! ### READ GATE STATUS -/

theorem answerBytes_length (x : Answer) : (answerBytes x).length = 4 := by cases x <;> rfl

theorem memoryBytes_length (m : Option Memory) : (memoryBytes m).length = 11 := by cases m <;> rfl

theorem State.claimBytes_length (s : State) (c : Option Claim) : (s.claimBytes c).length = 15 := by cases c <;> rfl

/-- The gate's own fields, ahead of its last answer (R172). -/
def gateHead (g : Gate) : List Byte :=
  be1 (g.station.getD 0xFF) ++ flag1 g.enabled ++ be1 (if g.online then 0 else 1) ++ be1 g.misses
    ++ be1 (healthCode g.health) ++ be1 (toggleCode g.toggle) ++ flag1 g.replyPending

theorem State.gateData_eq (s : State) (k : Nat) (g : Gate) :
    s.gateData k g = gateHead g ++ (answerBytes g.answer ++ (memoryBytes g.memory ++ s.claimBytes (s.claimOf k))) := by
  simp only [State.gateData, gateHead, List.append_assoc]

theorem State.gateData_head (s : State) (k : Nat) (g : Gate) : BlockAt (s.gateData k g) (gateHead g) 0 7 :=
  ⟨[], _, s.gateData_eq k g, rfl, rfl⟩

theorem State.gateData_memory (s : State) (k : Nat) (g : Gate) :
    BlockAt (s.gateData k g) (memoryBytes g.memory) 11 11 :=
  ⟨gateHead g ++ answerBytes g.answer, s.claimBytes (s.claimOf k), by rw [State.gateData_eq, List.append_assoc],
    by rw [List.length_append, answerBytes_length]; rfl, memoryBytes_length _⟩

theorem State.gateData_claim (s : State) (k : Nat) (g : Gate) :
    BlockAt (s.gateData k g) (s.claimBytes (s.claimOf k)) 22 15 :=
  ⟨gateHead g ++ (answerBytes g.answer ++ memoryBytes g.memory), [],
    by simp only [State.gateData_eq, List.append_assoc, List.append_nil],
    by simp only [List.length_append, answerBytes_length, memoryBytes_length]; rfl, s.claimBytes_length _⟩

/-- The status has 37 bytes, whatever exists (R172, R189). -/
theorem State.gateData_length (s : State) (k : Nat) (g : Gate) : (s.gateData k g).length = 37 := by
  simp only [State.gateData_eq, List.length_append, answerBytes_length, memoryBytes_length, State.claimBytes_length]
  rfl

theorem memoryBytes_presence (m : Option Memory) :
    (memoryBytes m)[0]? = some (if m.isSome then 1 else 0) := by cases m <;> rfl

/-- A memory's record in its two bytes: presence, and the car (R172, R189). -/
theorem memoryBytes_record (m : Memory) :
    (memoryBytes (some m))[1]? = some (if m.record.isSome then 1 else 0)
      ∧ (memoryBytes (some m))[10]? = some (if m.record = some .b then 1 else 0) := by
  have presence : (memoryBytes (some m))[1]? = (be1 (bits [m.record.isSome]))[0]? := rfl
  have car : (memoryBytes (some m))[10]? = (be1 ((m.record.map carCode).getD 0))[0]? := rfl
  rw [presence, car]
  cases m.record with
  | none => exact ⟨rfl, rfl⟩
  | some c => cases c <;> exact ⟨rfl, rfl⟩

/-- A gate's open claim is found where the list holds one of it. -/
theorem State.claimOf_isSome (s : State) (k : Nat) : (s.claimOf k).isSome ↔ ∃ c ∈ s.adm.claims, c.gate = k := by
  simp [State.claimOf]

theorem State.claimBytes_presence (s : State) (c : Option Claim) :
    (s.claimBytes c)[0]? = some (if c.isSome then 1 else 0) := by cases c <;> rfl

/-- Address 0 names no gate. -/
theorem State.gate_zero (s : State) : s.gate 0 = none := rfl

theorem execReadGateStatus_gate {x : Byte} {s : State} {g : Gate} (h : s.gate x.toNat = some g) :
    exec (.readGateStatus (.fields x)) s = .next (s.reply 0x71 .ok (s.gateData x.toNat g)) := by
  have addressed : x ≠ 0 := by
    rintro rfl
    cases s.gate_zero.symm.trans h
  simp only [exec, execReadGateStatus, withForm, readGateStatus, if_neg addressed, h]

theorem execReadGateStatus_beyond {x : Byte} {s : State} (h : 16 < x.toNat) (length : s.adm.gates.length = 16) :
    exec (.readGateStatus (.fields x)) s = .next (s.reply 0x71 .badParameter []) := by
  have addressed : x ≠ 0 := by rintro rfl; exact absurd h (by decide)
  have absent : s.gate x.toNat = none := by
    rw [State.gate, if_neg (by omega), List.getElem?_eq_none (by omega)]
  simp only [exec, execReadGateStatus, withForm, readGateStatus, if_neg addressed, absent]

/-! ### READ MONITOR -/

theorem State.monitorData_eq (s : State) :
    s.monitorData
      = monChannelBytes s.mon.wind ++ (monChannelBytes s.mon.tension ++ (monChannelBytes s.mon.rail
        ++ (monChannelBytes s.mon.motor ++ (condBytes s.mon.w1 ++ (condBytes s.mon.w2 ++ (condBytes s.mon.frost
        ++ (condBytes s.mon.m1 ++ (condBytes s.mon.m2 ++ (condBytes s.mon.slack ++ (condBytes s.mon.overtension
        ++ [BitVec.ofNat 8 s.geo.active.exposedRuns.length])))))))))) := by
  simp only [State.monitorData, be1_eq, List.append_assoc]

theorem condBytes_raised (c : Cond) : (condBytes c)[0]? = some (if c.raised then 0 else 1) := by
  unfold condBytes
  cases c.raised <;> rfl

/-- Settles O41: each read replies with its record and nothing else, and each offset lies in one block of the record. -/
theorem statusReadsChangeNothing : Obligations.StatusReadsChangeNothing := by
  refine fun s => ⟨fun x c h => ?stop, fun x h => ?noCar, fun x g h => ?gate, ?summary, fun x h length => ?noGate,
    ?monitor⟩
  case stop =>
    have record := s.stopData_record c
    have report := s.stopData_report c
    have tail := s.stopData_tail c
    refine ⟨_, s.stopData c, execReadStopRecord_car h s, State.reply_answered _ _ _ _, (s.reply_touches _ _ _).1,
      s.stopData_length c, ?recorded, ?live, ?reported, tail.get 0 (by decide), tail.get 2 (by decide),
      fun r hr fits => ?since, fun absent => ?absent, fun r present => ?present⟩
    case recorded =>
      rw [record.get 0 (by decide), groupBytes_presence, Option.isSome_map]
    case live =>
      rw [(s.stopData_live c).get 0 (by decide)]
      cases (s.car c).live <;> rfl
    case reported =>
      rw [report.get 0 (by decide), groupBytes_presence, Option.isSome_map]
    case since =>
      rw [report.slice 9 4 (by decide), ← State.sinceBytes_of_fits fits, State.reportGroup, hr]
      refine List.take_left' ?_
      exact s.sinceBytes_length _
    case absent =>
      rw [record.slice 1 22 (by decide), State.recordGroup, absent]
      rfl
    case present =>
      have block := State.stopData_present present
      rw [State.recordData_eq] at block
      exact ⟨block.get 1 (by decide), block.get 3 (by decide), block.get 4 (by decide), block.slice 5 2 (by decide),
        block.get 7 (by decide), block.get 8 (by decide), block.get 9 (by decide), block.slice 14 4 (by decide),
        block.slice 18 4 (by decide)⟩
  case noCar => exact ⟨_, execReadStopRecord_beyond h s, State.reply_answered _ _ _ _, (s.reply_touches _ _ _).1⟩
  case gate =>
    have head := s.gateData_head x.toNat g
    have memory := s.gateData_memory x.toNat g
    refine ⟨_, s.gateData x.toNat g, execReadGateStatus_gate h, State.reply_answered _ _ _ _,
      (s.reply_touches _ _ _).1, s.gateData_length _ _, head.byte 0 (by decide) rfl, head.get 1 (by decide), ?online,
      (memory.get 0 (by decide)).trans (memoryBytes_presence _), fun m hm => ?memory, ?claim⟩
    case online =>
      refine (head.byte 2 (v := if g.online then 0 else 1) (by decide) rfl).trans ?_
      cases g.online <;> rfl
    case memory =>
      rw [hm] at memory
      obtain ⟨presence, car⟩ := memoryBytes_record m
      exact ⟨(memory.get 1 (by decide)).trans presence, memory.get 2 (by decide), (memory.get 10 (by decide)).trans car⟩
    case claim =>
      rw [(s.gateData_claim x.toNat g).get 0 (by decide), State.claimBytes_presence]
      exact congrArg some (if_congr (s.claimOf_isSome x.toNat) rfl rfl)
  case summary => exact ⟨_, rfl, (s.reply_touches _ _ _).1, State.reply_answered _ _ _ _⟩
  case noGate => exact ⟨_, execReadGateStatus_beyond h length, State.reply_answered _ _ _ _, (s.reply_touches _ _ _).1⟩
  case monitor =>
    refine ⟨_, s.monitorData, rfl, State.reply_answered _ _ _ _, (s.reply_touches _ _ _).1, ?_⟩
    rw [State.monitorData_eq]
    exact ⟨rfl, rfl, condBytes_raised s.mon.w1, condBytes_raised s.mon.w2, condBytes_raised s.mon.slack,
      condBytes_raised s.mon.overtension, rfl⟩

end Sys2Proof.Machine
end

-- ==== The conditions of the monitor ====
section
/-! The conditions of the monitor: a condition that takes a value raises MONITOR and has its effect where it becomes
RAISED or CLEAR, and only counts where it does not (R52 to R60). -/

namespace Sys2Proof.Machine

/-! ### The attention cause MONITOR -/

/-- The attention cause MONITOR stands as it stood. -/
def monitorCauseKept (s t : State) : Prop := hasAttention t .monitor = hasAttention s .monitor

theorem monitorCauseKept.trans {s t u : State} (h : monitorCauseKept s t) (k : monitorCauseKept t u) :
    monitorCauseKept s u := Eq.trans k h

theorem monitorCauseKept.of_keptBut {a : List Part} {s t : State} (h : keptBut a s t) (ha : Part.attention ∉ a) :
    monitorCauseKept s t := by
  have same : s.lnk.attention = t.lnk.attention := h .attention ha
  rw [monitorCauseKept, hasAttention, hasAttention, same]

/-- Another cause that is raised is not MONITOR. -/
theorem State.raise_monitorCauseKept (s : State) {c : Attention} (h : c ≠ .monitor) :
    monitorCauseKept s (s.raise c) := by
  have other : (attentionMask c).getLsbD (attentionBit .monitor) = false := by
    revert h
    cases c <;> simp [attentionMask, attentionBit]
  simp only [monitorCauseKept, hasAttention, State.raise_attention, BitVec.getLsbD_or, other, Bool.or_false]

/-- A record that becomes READY raises STOP PHASE (R124). -/
theorem State.tryReady_monitorCauseKept (s : State) (c : Car) : monitorCauseKept s (s.tryReady c) := by
  unfold State.tryReady State.enterReady
  split
  · rfl
  · split
    · split
      · rfl
      · refine .trans ?_ (State.raise_monitorCauseKept _ (by decide))
        exact .of_keptBut ((s.setRecord_touches c _).trans (State.setLoad_touches _ c _)).1 (by decide)
    · rfl

theorem State.lowerHeld_monitorCauseKept (s : State) (c : Car) (n : Nat) : monitorCauseKept s (s.lowerHeld c n) :=
  .trans (.of_keptBut (s.modRecord_touches c _).1 (by decide)) (State.tryReady_monitorCauseKept _ c)

/-- A lapse raises STOP PHASE at most (R123, R166). -/
theorem State.lapseClaim_monitorCauseKept (s : State) (cl : Claim) : monitorCauseKept s (s.lapseClaim cl) :=
  (s.lowerHeld_monitorCauseKept cl.car cl.persons).trans
    (.of_keptBut (((State.detachClaim_touches _ cl.slot).trans (State.dropClaim_touches _ cl.id)).trans
      (State.modGate_touches _ cl.gate _)).1 (by decide))

theorem State.lapseClaims_monitorCauseKept (s : State) (l : List Claim) :
    monitorCauseKept s (l.foldl State.lapseClaim s) := by
  induction l generalizing s with
  | nil => rfl
  | cons cl l ih => exact (s.lapseClaim_monitorCauseKept cl).trans (ih _)

theorem State.discardRecord_monitorCauseKept (s : State) (c : Car) : monitorCauseKept s (s.discardRecord c) := by
  unfold State.discardRecord
  split
  · rfl
  · refine .trans (.trans ?_ (State.lapseClaims_monitorCauseKept _ _))
      (.of_keptBut (State.forgetRecord_touches _ c).1 (by decide))
    exact .of_keptBut (s.setRecord_touches c none).1 (by decide)

theorem State.setLine_monitorCauseKept (s : State) (l : LineState) : monitorCauseKept s (s.setLine l) := by
  cases l <;> exact State.raise_monitorCauseKept s (c := .lineState) (by decide)

theorem State.haltEvent_monitorCauseKept (s : State) (h : HaltCause) : monitorCauseKept s (s.haltEvent h) := by
  unfold State.haltEvent
  split
  · have halting : touches [.haltCause, .speeds, .torque] (s.setLine .halted) (s.halting h) :=
      ((State.setHalt_touches _ h).trans (State.setPerm_touches _ 0)).trans (State.stopTorque_touches _)
    exact .trans (.trans (s.setLine_monitorCauseKept .halted) (.of_keptBut halting.1 (by decide)))
      (.trans (State.discardRecord_monitorCauseKept _ .a) (State.discardRecord_monitorCauseKept _ .b))
  · rfl

theorem State.enterTripped_monitorCauseKept (s : State) (c : TripCause) : monitorCauseKept s (s.enterTripped c) :=
  have entered : touches [.speeds, .torque, .hold, .resetWait, .records] ((s.latch c).setLine .tripped)
      ((s.trippedCore c).setSuspended true) :=
    ((((State.setPerm_touches _ 0).trans (State.stopTorque_touches _)).trans (State.dropHold_touches _ c)).trans
      ((State.beginWait_touches _).trans (State.setSuspended_touches _ true))).mono (by decide)
  .trans (.trans (State.setLine_monitorCauseKept (s.latch c) .tripped) (.of_keptBut entered.1 (by decide)))
    (State.raise_monitorCauseKept _ (by decide))

theorem State.takeCause_monitorCauseKept (s : State) (c : TripCause) : monitorCauseKept s (s.takeCause c) := by
  have further : monitorCauseKept s (s.addFurther c) := State.raise_monitorCauseKept s (c := .trip) (by decide)
  unfold State.takeCause
  split
  case h_1 =>
    split
    · exact further
    · rfl
  case h_2 =>
    split
    · rfl
    · exact further.trans (.of_keptBut (State.dropHold_touches _ c).1 (by decide))
  all_goals exact s.enterTripped_monitorCauseKept c

/-! ### Reading a channel or a condition after a change -/

theorem State.setMonChannel_channel (s : State) (ch d : MonChannel) (c : MonChannelState) :
    (s.setMonChannel ch c).mon.channel d = if d = ch then c else s.mon.channel d := by
  cases ch <;> cases d <;> rfl

theorem State.setMonChannel_cond (s : State) (ch : MonChannel) (c : MonChannelState) (k : CondId) :
    (s.setMonChannel ch c).mon.cond k = s.mon.cond k := by
  cases ch <;> cases k <;> rfl

theorem State.setCond_cond (s : State) (k j : CondId) (c : Cond) :
    (s.setCond k c).mon.cond j = if j = k then c else s.mon.cond j := by
  cases k <;> cases j <;> rfl

theorem State.setCond_channel (s : State) (k : CondId) (c : Cond) (ch : MonChannel) :
    (s.setCond k c).mon.channel ch = s.mon.channel ch := by
  cases k <;> cases ch <;> rfl

/-! ### A condition takes a value -/

/-- A condition changes and MONITOR is raised, ahead of its effect (R60). -/
abbrev State.markCond (s : State) (k : CondId) (c : Cond) : State := (s.setCond k c).raise .monitor

/-- A condition takes a value; where it becomes RAISED or CLEAR, MONITOR is raised and the effect follows (R52, R53,
R60). -/
def State.moveCond (s : State) (k : CondId) (c : Cond) : State :=
  if c.raised = (s.mon.cond k).raised then s.setCond k c
  else if c.raised then (s.markCond k c).raiseEffect k
  else (s.markCond k c).clearEffect k

theorem State.moveCond_of_same {s : State} {k : CondId} {c : Cond} (h : c.raised = (s.mon.cond k).raised) :
    s.moveCond k c = s.setCond k c := if_pos h

theorem State.moveCond_of_raised {s : State} {k : CondId} {c : Cond} (was : (s.mon.cond k).raised = false)
    (h : c.raised = true) : s.moveCond k c = (s.markCond k c).raiseEffect k := by
  simp [State.moveCond, was, h]

theorem State.moveCond_of_cleared {s : State} {k : CondId} {c : Cond} (was : (s.mon.cond k).raised = true)
    (h : c.raised = false) : s.moveCond k c = (s.markCond k c).clearEffect k := by
  simp [State.moveCond, was, h]

/-- The parts that the effect of a condition may change (R56 to R59). -/
def effectParts : CondId → List Part
  | .w1 | .frost => [.restrictions]
  | .slack => tripParts
  | .overtension => haltParts
  | .w2 | .m1 | .m2 => []

theorem State.raiseEffect_touches (s : State) (k : CondId) : touches (effectParts k) s (s.raiseEffect k) := by
  cases k with
  | w1 => exact s.writeWind_touches
  | frost => exact s.writeFrost_touches
  | slack => exact s.takeCause_touches _
  | overtension => exact s.haltEvent_touches _
  | w2 | m1 | m2 => exact touches.refl _ s

/-- Only W1 and FROST have an effect at CLEAR, on their slots (R56, R57). -/
theorem State.clearEffect_touches (s : State) (k : CondId) : touches [.restrictions] s (s.clearEffect k) := by
  cases k with
  | w1 => exact s.freeWind_touches
  | frost => exact s.setEntry_touches 5 none
  | slack | overtension | w2 | m1 | m2 => exact touches.refl _ s

/-- The change of a condition without its effect. -/
theorem State.markCond_touches (s : State) (k : CondId) (c : Cond) :
    touches [.monitor, .attention] s (s.markCond k c) :=
  (s.setCond_touches k c).trans (State.raise_touches _ _)

theorem State.moveCond_touches (s : State) (k : CondId) (c : Cond) :
    touches ([.monitor, .attention, .restrictions] ++ effectParts k) s (s.moveCond k c) := by
  unfold State.moveCond
  refine touches.ite ((s.setCond_touches k c).mono (by simp)) (touches.ite ?_ ?_)
  · exact ((s.markCond_touches k c).trans (State.raiseEffect_touches _ k)).mono (by intro p; simp; tauto)
  · exact ((s.markCond_touches k c).trans (State.clearEffect_touches _ k)).mono (by simp)

/-- A condition that does not become RAISED has an effect on its slots at most. -/
theorem State.moveCond_touches_of_not_raised {s : State} {k : CondId} {c : Cond}
    (h : c.raised = (s.mon.cond k).raised ∨ c.raised = false) :
    touches [.monitor, .attention, .restrictions] s (s.moveCond k c) := by
  unfold State.moveCond
  split
  case isTrue => exact (s.setCond_touches k c).mono (by decide)
  case isFalse changed =>
    rw [if_neg (by rw [h.resolve_left changed]; decide)]
    exact ((s.markCond_touches k c).trans (State.clearEffect_touches _ k)).mono (by decide)

/-- OVERTENSION ends a run alone (R59, R76). -/
theorem State.moveCond_overtension_of_stopped {s : State} (h : s.running = false) (c : Cond) :
    touches [.monitor, .attention] s (s.moveCond .overtension c) := by
  have stopped : (s.markCond .overtension c).running = false := h
  have effect : (s.markCond .overtension c).raiseEffect .overtension
      = s.markCond .overtension c := if_neg (by simp [stopped])
  unfold State.moveCond
  rw [effect]
  exact touches.ite ((s.setCond_touches _ c).mono (by decide))
    (touches.ite (s.markCond_touches _ c) (s.markCond_touches _ c))

theorem monitor_notMem_effectParts (k : CondId) : Part.monitor ∉ effectParts k := by cases k <;> decide

/-- The effects leave the monitor's own state. -/
theorem State.moveCond_mon (s : State) (k : CondId) (c : Cond) : (s.moveCond k c).mon = (s.setCond k c).mon := by
  unfold State.moveCond
  split
  · rfl
  · split
    · exact ((State.raiseEffect_touches _ k).1 .monitor (monitor_notMem_effectParts k)).symm
    · exact ((State.clearEffect_touches _ k).1 .monitor (by decide)).symm

theorem State.moveCond_cond (s : State) (k j : CondId) (c : Cond) :
    (s.moveCond k c).mon.cond j = if j = k then c else s.mon.cond j := by
  rw [State.moveCond_mon, State.setCond_cond]

theorem State.moveCond_channel (s : State) (k : CondId) (c : Cond) (ch : MonChannel) :
    (s.moveCond k c).mon.channel ch = s.mon.channel ch := by
  rw [State.moveCond_mon, State.setCond_channel]

theorem State.moveCond_params (s : State) (k : CondId) (c : Cond) : (s.moveCond k c).params = s.params :=
  ((s.moveCond_touches k c).1 .params (by cases k <;> decide)).symm

theorem State.raiseEffect_monitorCauseKept (s : State) (k : CondId) : monitorCauseKept s (s.raiseEffect k) := by
  cases k with
  | w1 => exact .of_keptBut s.writeWind_touches.1 (by decide)
  | frost => exact .of_keptBut s.writeFrost_touches.1 (by decide)
  | slack => exact s.takeCause_monitorCauseKept _
  | overtension => exact s.haltEvent_monitorCauseKept _
  | w2 | m1 | m2 => rfl

/-- MONITOR is raised where the condition changes and nowhere else (R60). -/
theorem State.moveCond_hasAttention (s : State) (k : CondId) (c : Cond) :
    hasAttention (s.moveCond k c) .monitor = true
      ↔ hasAttention s .monitor = true ∨ c.raised ≠ (s.mon.cond k).raised := by
  have moved : hasAttention (s.markCond k c) .monitor = true := State.hasAttention_raise _ _
  unfold State.moveCond
  split
  case isTrue same =>
    have kept : monitorCauseKept s (s.setCond k c) := .of_keptBut (s.setCond_touches k c).1 (by decide)
    rw [show hasAttention (s.setCond k c) .monitor = hasAttention s .monitor from kept]
    simp [same]
  case isFalse changed =>
    refine iff_of_true ?_ (.inr changed)
    split
    · exact Eq.trans (State.raiseEffect_monitorCauseKept _ k) moved
    · exact (State.clearEffect_touches _ k).2.hasAttention moved

/-! ### The conditions of a channel -/

/-- The conditions of a list take their values one after the other. -/
def State.moveConds (s : State) (l : List CondId) (f : CondId → Cond) : State :=
  l.foldl (fun t k => t.moveCond k (f k)) s

theorem State.moveConds_cond (s : State) (l : List CondId) (f : CondId → Cond) (j : CondId) :
    (s.moveConds l f).mon.cond j = if j ∈ l then f j else s.mon.cond j := by
  induction l generalizing s with
  | nil => rfl
  | cons k l ih =>
    refine (ih (s.moveCond k (f k))).trans ?_
    rw [State.moveCond_cond]
    by_cases here : j = k <;> by_cases later : j ∈ l <;> simp [here, later]

theorem State.moveConds_channel (s : State) (l : List CondId) (f : CondId → Cond) (ch : MonChannel) :
    (s.moveConds l f).mon.channel ch = s.mon.channel ch := by
  induction l generalizing s with
  | nil => rfl
  | cons k l ih => exact (ih (s.moveCond k (f k))).trans (s.moveCond_channel k _ ch)

/-- MONITOR is raised where a condition of the list changes and nowhere else (R60). -/
theorem State.moveConds_hasAttention (s : State) {l : List CondId} (once : l.Nodup) (f : CondId → Cond) :
    hasAttention (s.moveConds l f) .monitor = true
      ↔ hasAttention s .monitor = true ∨ ∃ k ∈ l, (f k).raised ≠ (s.mon.cond k).raised := by
  induction l generalizing s with
  | nil => simp [State.moveConds]
  | cons k l ih =>
    obtain ⟨new, once⟩ := List.nodup_cons.mp once
    have same : (∃ j ∈ l, (f j).raised ≠ ((s.moveCond k (f k)).mon.cond j).raised)
        ↔ ∃ j ∈ l, (f j).raised ≠ (s.mon.cond j).raised := by
      refine exists_congr fun j => and_congr_right fun hj => ?_
      rw [State.moveCond_cond, if_neg (by rintro rfl; exact new hj)]
    refine (ih (s.moveCond k (f k)) once).trans ?_
    rw [same, State.moveCond_hasAttention, List.exists_mem_cons_iff, or_assoc]

theorem State.moveConds_touches {parts : List Part} (s : State) (l : List CondId) (f : CondId → Cond)
    (h : ∀ k ∈ l, [.monitor, .attention, .restrictions] ++ effectParts k ⊆ parts) :
    touches parts s (s.moveConds l f) := by
  induction l generalizing s with
  | nil => exact touches.refl _ s
  | cons k l ih =>
    exact ((s.moveCond_touches k (f k)).mono (h k (by simp))).step
      (ih (s.moveCond k (f k)) fun j hj => h j (List.mem_cons_of_mem k hj))

/-! ### The entries that MON owns -/

/-- The entries that a condition owns (R55 to R57). -/
def slotsOf : CondId → List Nat
  | .w1 => [0, 1, 2, 3, 4]
  | .frost => [5]
  | .w2 | .m1 | .m2 | .slack | .overtension => []

theorem mem_slotsOf {k : CondId} {n : Nat} : n ∈ slotsOf k ↔ (k = .w1 ∧ n < 5) ∨ (k = .frost ∧ n = 5) := by
  cases k <;> simp [slotsOf]
  omega

theorem mem_slotsOf_w1 {n : Nat} (h : n < 5) : n ∈ slotsOf .w1 := mem_slotsOf.mpr (.inl ⟨rfl, h⟩)

/-- WIND entry n while W1 is RAISED (R55, R56). -/
def State.windEntry (s : State) (n : Nat) : Option Restriction :=
  s.geo.active.exposedRuns[n]?.map fun y => s.monEntry y.1 y.2 (s.par 0x30)

theorem State.writeWindSlot_eq (s : State) (n : Nat) : s.writeWindSlot n = s.setEntry n (s.windEntry n) := by
  unfold State.writeWindSlot State.windEntry
  cases s.geo.active.exposedRuns[n]? <;> rfl

theorem State.writeWindSlots_eq (s : State) (l : List Nat) :
    l.foldl State.writeWindSlot s = l.foldl (fun t n => t.setEntry n (s.windEntry n)) s := by
  induction l generalizing s with
  | nil => rfl
  | cons n l ih =>
    rw [List.foldl_cons, List.foldl_cons, State.writeWindSlot_eq, ih]
    rfl

/-- Entries written one after the other. -/
theorem State.setEntries_entry (s : State) (l : List Nat) (f : Nat → Option Restriction) (m : Nat) :
    (l.foldl (fun t n => t.setEntry n (f n)) s).entry m
      = if m ∈ l ∧ m < s.tsr.table.length then f m else s.entry m := by
  induction l generalizing s with
  | nil => simp
  | cons n l ih =>
    rw [List.foldl_cons, ih, State.entry_setEntry, State.setEntry_table, List.length_set]
    by_cases here : n = m
    · subst here
      simp only [List.mem_cons, true_or, true_and]
      split_ifs <;> simp_all
    · simp [here, Ne.symm here]

theorem State.entry_beyond {s : State} {n : Nat} (h : s.tsr.table.length ≤ n) : s.entry n = none :=
  List.getD_eq_default _ _ h

theorem State.freeWind_entry (s : State) {n : Nat} (h : n < 5) : s.freeWind.entry n = none := by
  refine (s.setEntries_entry [0, 1, 2, 3, 4] (fun _ => none) n).trans ?_
  split
  case isTrue => rfl
  case isFalse beyond =>
    exact State.entry_beyond (Nat.not_lt.mp fun inside => beyond ⟨mem_slotsOf_w1 h, inside⟩)

theorem State.writeWind_entry {s : State} (geo : s.hasGeometry = true) (length : s.tsr.table.length = 32) {n : Nat}
    (h : n < 5) : s.writeWind.entry n = s.windEntry n := by
  rw [State.writeWind, if_pos geo, State.writeWindSlots_eq, State.setEntries_entry,
    if_pos ⟨mem_slotsOf_w1 h, by omega⟩]

theorem keptBut.entry {parts : List Part} {s t : State} (h : keptBut parts s t) (hp : Part.restrictions ∉ parts)
    (n : Nat) : t.entry n = s.entry n := by
  have same : s.tsr.table = t.tsr.table := h .restrictions hp
  rw [State.entry, State.entry, same]

theorem State.raiseEffect_entry_other (s : State) {k : CondId} {n : Nat} (h : n ∉ slotsOf k) :
    (s.raiseEffect k).entry n = s.entry n := by
  cases k with
  | w1 =>
    show s.writeWind.entry n = _
    unfold State.writeWind
    split
    · rw [State.writeWindSlots_eq, State.setEntries_entry, if_neg fun m => h m.1]
    · rfl
  | frost =>
    show s.writeFrost.entry n = _
    unfold State.writeFrost
    split
    · exact s.entry_setEntry_other (by simpa [slotsOf] using h) _
    · rfl
  | slack => exact (s.takeCause_touches _).1.entry (by decide) n
  | overtension => exact (s.haltEvent_touches _).1.entry (by decide) n
  | w2 | m1 | m2 => rfl

theorem State.clearEffect_entry_other (s : State) {k : CondId} {n : Nat} (h : n ∉ slotsOf k) :
    (s.clearEffect k).entry n = s.entry n := by
  cases k with
  | w1 => exact (s.setEntries_entry [0, 1, 2, 3, 4] (fun _ => none) n).trans (if_neg fun m => h m.1)
  | frost => exact s.entry_setEntry_other (by simpa [slotsOf] using h) _
  | slack | overtension | w2 | m1 | m2 => rfl

/-- What a condition with slots writes into one of them when it becomes RAISED (R55 to R57). -/
def State.ownEntry (s : State) (k : CondId) (n : Nat) : Option Restriction :=
  if k = .frost then some (s.monEntry 0 s.len (s.par 0x31)) else s.windEntry n

theorem State.raiseEffect_entry_own {s : State} (geo : s.hasGeometry = true) (length : s.tsr.table.length = 32)
    {k : CondId} {n : Nat} (own : n ∈ slotsOf k) : (s.raiseEffect k).entry n = s.ownEntry k n := by
  obtain ⟨rfl, wind⟩ | ⟨rfl, rfl⟩ := mem_slotsOf.mp own
  · exact State.writeWind_entry geo length wind
  · exact (congrArg (State.entry · 5) (if_pos geo)).trans (State.entry_setEntry_same (by omega) _)

theorem State.raiseEffect_entry_of_no_geometry {s : State} (geo : s.hasGeometry = false) {k : CondId} {n : Nat}
    (own : n ∈ slotsOf k) : (s.raiseEffect k).entry n = s.entry n := by
  have absent : ¬ s.hasGeometry = true := by simp [geo]
  obtain ⟨rfl, -⟩ | ⟨rfl, -⟩ := mem_slotsOf.mp own
  · exact congrArg (State.entry · n) (if_neg absent)
  · exact congrArg (State.entry · n) (if_neg absent)

theorem State.clearEffect_entry_own (s : State) {k : CondId} {n : Nat} (own : n ∈ slotsOf k) :
    (s.clearEffect k).entry n = none := by
  obtain ⟨rfl, wind⟩ | ⟨rfl, rfl⟩ := mem_slotsOf.mp own
  · exact s.freeWind_entry wind
  · refine (s.entry_setEntry 5 5 none).trans ?_
    split
    · rfl
    · exact State.entry_beyond (by omega)

theorem State.setCond_entry (s : State) (k : CondId) (c : Cond) (n : Nat) : (s.setCond k c).entry n = s.entry n := by
  rw [State.entry, State.setCond_tsr, State.entry]

theorem State.moveCond_entry_other (s : State) {k : CondId} (c : Cond) {n : Nat} (h : n ∉ slotsOf k) :
    (s.moveCond k c).entry n = s.entry n := by
  unfold State.moveCond
  split
  · exact s.setCond_entry k c n
  · split
    · exact (State.raiseEffect_entry_other _ h).trans (s.setCond_entry k c n)
    · exact (State.clearEffect_entry_other _ h).trans (s.setCond_entry k c n)

theorem State.moveConds_entry_other (s : State) (l : List CondId) (f : CondId → Cond) {n : Nat}
    (h : ∀ k ∈ l, n ∉ slotsOf k) : (s.moveConds l f).entry n = s.entry n := by
  induction l generalizing s with
  | nil => rfl
  | cons k l ih =>
    exact (ih (s.moveCond k (f k)) fun j hj => h j (List.mem_cons_of_mem k hj)).trans
      (s.moveCond_entry_other _ (h k (List.mem_cons_self ..)))

/-- No two conditions own the same entry. -/
theorem slotsOf_disjoint {j k : CondId} {n : Nat} (hj : n ∈ slotsOf j) (hk : n ∈ slotsOf k) : j = k := by
  rcases mem_slotsOf.mp hj with ⟨rfl, _⟩ | ⟨rfl, _⟩ <;> rcases mem_slotsOf.mp hk with ⟨rfl, _⟩ | ⟨rfl, _⟩
  · rfl
  · omega
  · omega
  · rfl

/-- A condition with slots is the first of its channel. -/
theorem condsOf_eq_of_owner {ch : MonChannel} {k : CondId} {n : Nat} (own : n ∈ slotsOf k) (h : k ∈ condsOf ch) :
    ∃ rest, condsOf ch = k :: rest ∧ k ∉ rest := by
  obtain ⟨rfl, -⟩ | ⟨rfl, -⟩ := mem_slotsOf.mp own
  · cases ch <;> simp [condsOf] at h ⊢
  · cases ch <;> simp [condsOf] at h ⊢

/-- An entry that MON owns follows its one condition, of whatever channel the sample is. -/
theorem State.moveConds_entry_own (s : State) (ch : MonChannel) {f : CondId → Cond}
    (outside : ∀ k, k ∉ condsOf ch → f k = s.mon.cond k) {k : CondId} {n : Nat} (own : n ∈ slotsOf k) :
    (s.moveConds (condsOf ch) f).entry n = (s.moveCond k (f k)).entry n := by
  by_cases member : k ∈ condsOf ch
  · obtain ⟨rest, conds, new⟩ := condsOf_eq_of_owner own member
    rw [conds]
    exact State.moveConds_entry_other _ rest f fun j hj h => new (slotsOf_disjoint h own ▸ hj)
  · have same : (s.moveCond k (f k)).entry n = s.entry n := by
      rw [outside k member, State.moveCond_of_same rfl, State.setCond_entry]
    rw [same]
    exact s.moveConds_entry_other _ f fun j hj h => member (slotsOf_disjoint h own ▸ hj)

theorem State.moveCond_entry_of_raised {s : State} (geo : s.hasGeometry = true) (length : s.tsr.table.length = 32)
    {k : CondId} {n : Nat} (own : n ∈ slotsOf k) {c : Cond} (was : (s.mon.cond k).raised = false)
    (h : c.raised = true) : (s.moveCond k c).entry n = s.ownEntry k n := by
  have moved : (s.markCond k c).ownEntry k n = s.ownEntry k n := by cases k <;> rfl
  rw [State.moveCond_of_raised was h, ← moved]
  refine State.raiseEffect_entry_own ?_ ?_ own
  · rw [State.hasGeometry, State.raise_geo, State.setCond_geo]; exact geo
  · rw [State.raise_tsr, State.setCond_tsr]; exact length

theorem State.moveCond_entry_of_cleared {s : State} {k : CondId} {n : Nat} (own : n ∈ slotsOf k) {c : Cond}
    (was : (s.mon.cond k).raised = true) (h : c.raised = false) : (s.moveCond k c).entry n = none := by
  rw [State.moveCond_of_cleared was h, State.clearEffect_entry_own _ own]

theorem State.moveCond_entry_stands {s : State} {k : CondId} {n : Nat} (own : n ∈ slotsOf k) {c : Cond}
    (h : c.raised = (s.mon.cond k).raised ∨ ((s.mon.cond k).raised = false ∧ s.hasGeometry = false)) :
    (s.moveCond k c).entry n = s.entry n := by
  by_cases same : c.raised = (s.mon.cond k).raised
  · rw [State.moveCond_of_same same, State.setCond_entry]
  · obtain ⟨was, geo⟩ := h.resolve_left same
    have raised : c.raised = true := by simpa [was] using same
    have absent : (s.markCond k c).hasGeometry = false := by
      rw [State.hasGeometry, State.raise_geo, State.setCond_geo]; exact geo
    rw [State.moveCond_of_raised was raised, State.raiseEffect_entry_of_no_geometry absent own]
    exact s.setCond_entry k c n

/-! ### What a raised SLACK or OVERTENSION does to the line -/

/-- No trip cause leaves the line RUNNING (R100). -/
theorem State.takeCause_stopped (s : State) (c : TripCause) : (s.takeCause c).running = false := by
  unfold State.takeCause
  split
  case h_1 parked => split <;> simp [State.running, State.addFurther, parked, LineState.running]
  case h_2 tripped =>
    split <;> simp [State.running, State.dropHold_eq, State.addFurther, tripped, LineState.running]
  all_goals rw [State.running, State.enterTripped_haul]; rfl

theorem State.testBoth_of_absent {s : State} (h : ∀ c, s.record c = none) : s.testBoth = s := by
  have untested (c : Car) : s.testBerthed c = s := by simp only [State.testBerthed, h]
  rw [State.testBoth, untested, untested]

/-- OVERTENSION, RAISED in a run, ends it in HALTED (R59, R76). -/
theorem State.moveCond_overtension_halts {s : State} (running : s.running = true) {c : Cond}
    (was : (s.mon.cond .overtension).raised = false) (h : c.raised = true) :
    enteredHalted .overtension s (s.moveCond .overtension c).deriveBoarding := by
  have moved : s.moveCond .overtension c = (s.markCond .overtension c).enterHalted .overtension :=
    (State.moveCond_of_raised was h).trans (if_pos running)
  have halted := (s.markCond .overtension c).enterHalted_entered .overtension
  have absent (k : Car) : ((s.markCond .overtension c).enterHalted .overtension).record k = none :=
    State.discardRecords_absent _ k
  rw [State.testBoth_of_absent absent, ← moved] at halted
  exact halted

end Sys2Proof.Machine
end

-- ==== A monitor sample ====
section
/-! A monitor sample: the reading of its channel, then the conditions of the channel, each by its value, and what the
sample leaves of the entries, the line and every other part (R49 to R60). -/

namespace Sys2Proof.Machine

/-! ### A sample -/

/-- A condition after a good sample of this value (R52, R53). -/
def State.goodCond (s : State) (v : Int) (k : CondId) : Cond :=
  let q := s.mon.cond k
  if q.raised then
    if s.pastClear k v then
      if s.sustainOf k ≤ q.clearCount + 1 then ⟨false, 0, 0⟩ else { q with clearCount := q.clearCount + 1 }
    else { q with clearCount := 0 }
  else if s.pastRaise k v then
    if raiseCountOf k ≤ q.raiseCount + 1 then ⟨true, 0, 0⟩ else { q with raiseCount := q.raiseCount + 1 }
  else { q with raiseCount := 0 }

/-- A condition after a faulted sample (R54). -/
def State.forcedCond (s : State) (k : CondId) : Cond :=
  if k = .slack then ⟨(s.mon.cond k).raised, 0, 0⟩ else ⟨true, 0, 0⟩

/-- A condition after a sample of a channel. -/
def State.sampledCond (s : State) (ch : MonChannel) (bad : Bool) (v : Int) (k : CondId) : Cond :=
  if k ∉ condsOf ch then s.mon.cond k else if !bad then s.goodCond v k else s.forcedCond k

theorem State.evalCond_eq (s : State) (v : Int) (k : CondId) : s.evalCond v k = s.moveCond k (s.goodCond v k) := by
  unfold State.evalCond State.goodCond
  dsimp only
  split
  case isTrue raised =>
    split
    · split
      · exact (State.moveCond_of_cleared raised rfl).symm
      · exact (State.moveCond_of_same (by rfl)).symm
    · exact (State.moveCond_of_same (by rfl)).symm
  case isFalse clear =>
    split
    · split
      · exact (State.moveCond_of_raised (Bool.eq_false_of_not_eq_true clear) rfl).symm
      · exact (State.moveCond_of_same (by rfl)).symm
    · exact (State.moveCond_of_same (by rfl)).symm

theorem State.forceCond_eq (s : State) (k : CondId) : s.forceCond k = s.moveCond k (s.forcedCond k) := by
  unfold State.forceCond State.forcedCond
  dsimp only
  split
  case h_1 => exact (State.moveCond_of_same (by rfl)).symm
  case h_2 other =>
    rw [if_neg other]
    split
    case isTrue raised => exact (State.moveCond_of_same raised.symm).symm
    case isFalse clear => exact (State.moveCond_of_raised (Bool.eq_false_of_not_eq_true clear) rfl).symm

/-- The evaluation of a condition reads that condition and the parameters. -/
theorem State.goodCond_congr {s t : State} {k : CondId} (hp : s.params = t.params)
    (hc : s.mon.cond k = t.mon.cond k) (v : Int) : s.goodCond v k = t.goodCond v k := by
  have raise : s.pastRaise k v = t.pastRaise k v := by cases k <;> simp only [State.pastRaise, hp]
  have clear : s.pastClear k v = t.pastClear k v := by cases k <;> simp only [State.pastClear, hp]
  have sustain : s.sustainOf k = t.sustainOf k := by cases k <;> simp only [State.sustainOf, State.par, hp]
  simp only [State.goodCond, raise, clear, sustain, hc]

/-- Conditions taken one after the other do not read each other: each takes the value that it has from the start. -/
theorem State.foldl_eq_moveConds {step : State → CondId → State} {value : State → CondId → Cond}
    (moves : ∀ s k, step s k = s.moveCond k (value s k))
    (reads : ∀ s t k, s.params = t.params → s.mon.cond k = t.mon.cond k → value s k = value t k) (s : State)
    {f : CondId → Cond} {l : List CondId} (once : l.Nodup) (h : ∀ k ∈ l, value s k = f k) :
    l.foldl step s = s.moveConds l f := by
  induction l generalizing s with
  | nil => rfl
  | cons k l ih =>
    obtain ⟨new, once⟩ := List.nodup_cons.mp once
    rw [List.foldl_cons, moves, h k (List.mem_cons_self ..)]
    refine ih (s.moveCond k (f k)) once fun j hj => Eq.trans ?_ (h j (List.mem_cons_of_mem k hj))
    refine reads _ _ j (s.moveCond_params k _) ?_
    rw [State.moveCond_cond, if_neg (by rintro rfl; exact new hj)]

theorem condsOf_nodup (ch : MonChannel) : (condsOf ch).Nodup := by cases ch <;> decide

/-- A channel after a reading, faulted or with its value (R50, R51). -/
def MonChannelState.read (c : MonChannelState) (r : Nat) (bad : Bool) (v : Int) : MonChannelState :=
  { c with
    raw := r, due := c.due + 100000, fault := bad
    value := if bad then c.value else v
    valid := if bad then c.valid else true }

/-- A channel takes its reading, and a change of its fault flag raises MONITOR (R51, R60). -/
def State.takeReading (s : State) (ch : MonChannel) (r : Nat) (bad : Bool) (v : Int) : State :=
  if (s.mon.channel ch).fault = bad then s.setMonChannel ch ((s.mon.channel ch).read r bad v)
  else (s.setMonChannel ch ((s.mon.channel ch).read r bad v)).raise .monitor

theorem State.takeReading_touches (s : State) (ch : MonChannel) (r : Nat) (bad : Bool) (v : Int) :
    touches [.monitor, .attention] s (s.takeReading ch r bad v) :=
  touches.ite ((s.setMonChannel_touches ch _).mono (by decide))
    ((s.setMonChannel_touches ch _).trans (State.raise_touches _ _))

theorem State.takeReading_mon (s : State) (ch : MonChannel) (r : Nat) (bad : Bool) (v : Int) :
    (s.takeReading ch r bad v).mon = (s.setMonChannel ch ((s.mon.channel ch).read r bad v)).mon := by
  unfold State.takeReading
  split <;> rfl

theorem State.takeReading_cond (s : State) (ch : MonChannel) (r : Nat) (bad : Bool) (v : Int) (k : CondId) :
    (s.takeReading ch r bad v).mon.cond k = s.mon.cond k := by
  rw [State.takeReading_mon, State.setMonChannel_cond]

/-- MONITOR is raised at a change of the fault flag (R51, R60). -/
theorem State.takeReading_hasAttention (s : State) (ch : MonChannel) (r : Nat) (bad : Bool) (v : Int) :
    hasAttention (s.takeReading ch r bad v) .monitor = true
      ↔ hasAttention s .monitor = true ∨ (s.mon.channel ch).fault ≠ bad := by
  unfold State.takeReading
  split
  case isTrue same =>
    rw [show hasAttention (s.setMonChannel ch _) .monitor = hasAttention s .monitor from
      monitorCauseKept.of_keptBut (s.setMonChannel_touches ch _).1 (by decide)]
    simp [same]
  case isFalse changed => exact iff_of_true (State.hasAttention_raise _ _) (.inr changed)

/-- A faulted sample forces the conditions of its channel (R51, R54). -/
theorem State.sampleChannel_of_faulted (s : State) (ch : MonChannel) {r : Nat} (h : readingFaulted r = true) (v : Int) :
    s.sampleChannel ch r = (s.takeReading ch r true v).moveConds (condsOf ch) (s.sampledCond ch true v) := by
  refine (if_pos h).trans ?_
  refine State.foldl_eq_moveConds State.forceCond_eq (fun s t k _ same => ?_) (s.takeReading ch r true v)
    (condsOf_nodup ch) fun k member => ?_
  · simp only [State.forcedCond, same]
  · rw [State.sampledCond, if_neg (not_not.mpr member), State.forcedCond, State.takeReading_cond]
    rfl

/-- A good sample counts the conditions of its channel (R51 to R53). -/
theorem State.sampleChannel_of_good (s : State) (ch : MonChannel) {r : Nat} (h : readingFaulted r = false) :
    let v := scaledValue (s.scale ch).1 (s.scale ch).2 r
    s.sampleChannel ch r = (s.takeReading ch r false v).moveConds (condsOf ch) (s.sampledCond ch false v) := by
  intro v
  have reading : (if (s.mon.channel ch).fault then
      (s.setMonChannel ch ((s.mon.channel ch).read r false v)).raise .monitor
      else s.setMonChannel ch ((s.mon.channel ch).read r false v)) = s.takeReading ch r false v := by
    unfold State.takeReading
    cases (s.mon.channel ch).fault <;> rfl
  have evaluated := congrArg (List.foldl (fun t k => t.evalCond v k) · (condsOf ch)) reading
  refine (if_neg (by simp [h])).trans (evaluated.trans ?_)
  refine State.foldl_eq_moveConds (fun t k => t.evalCond_eq v k)
    (fun s t k params same => State.goodCond_congr params same v) (s.takeReading ch r false v) (condsOf_nodup ch)
    fun k member => ?_
  rw [State.sampledCond, if_neg (not_not.mpr member)]
  exact State.goodCond_congr ((s.takeReading_touches ch r false v).1 .params (by decide)).symm
    (s.takeReading_cond ch r false v k) v

/-- A sample is its reading, and then each condition of the channel takes its value (R49 to R54). -/
theorem State.sampleChannel_eq (s : State) (ch : MonChannel) (r : Nat) :
    let bad := readingFaulted r
    let v := scaledValue (s.scale ch).1 (s.scale ch).2 r
    s.sampleChannel ch r = (s.takeReading ch r bad v).moveConds (condsOf ch) (s.sampledCond ch bad v) := by
  cases h : readingFaulted r with
  | true => exact s.sampleChannel_of_faulted ch h _
  | false => exact s.sampleChannel_of_good ch h

/-- A reading writes the monitor and the attention set, and nothing else. -/
theorem State.takeReading_eq (s : State) (ch : MonChannel) (r : Nat) (bad : Bool) (v : Int) :
    ∃ m a, s.takeReading ch r bad v = { s with mon := m, lnk := { s.lnk with attention := a } } := by
  unfold State.takeReading
  split
  · cases ch <;> exact ⟨_, _, rfl⟩
  · cases ch <;> exact ⟨_, _, rfl⟩

/-! ### The state after a sample -/

/-- The state after the conditions of a channel have taken their values and the boarding states are derived. -/
def State.sampled (s : State) (ch : MonChannel) (f : CondId → Cond) : State :=
  (s.moveConds (condsOf ch) f).deriveBoarding

theorem State.deriveBoarding_entry (s : State) (n : Nat) : s.deriveBoarding.entry n = s.entry n :=
  s.deriveBoarding_touches.1.entry (by decide) n

theorem State.sampled_mon (s : State) (ch : MonChannel) (f : CondId → Cond) :
    (s.sampled ch f).mon = (s.moveConds (condsOf ch) f).mon :=
  ((State.deriveBoarding_touches _).1 .monitor (by decide)).symm

theorem State.sampled_now (s : State) (ch : MonChannel) (f : CondId → Cond) : (s.sampled ch f).now = s.now :=
  (((s.moveConds_touches (parts := sampleParts) _ f fun k _ => by cases k <;> decide).trans
    (State.deriveBoarding_touches _)).1 .time (by decide)).symm

theorem State.sampled_channel (s : State) (ch d : MonChannel) (f : CondId → Cond) :
    (s.sampled ch f).mon.channel d = s.mon.channel d := by
  rw [State.sampled_mon, State.moveConds_channel]

theorem State.sampled_tension (s : State) (f : CondId → Cond) :
    s.sampled .tension f
      = ((s.moveCond .slack (f .slack)).moveCond .overtension (f .overtension)).deriveBoarding := rfl

theorem State.sampled_entry_other (s : State) (ch : MonChannel) (f : CondId → Cond) {n : Nat} (h : 6 ≤ n) :
    (s.sampled ch f).entry n = s.entry n := by
  refine (State.deriveBoarding_entry _ n).trans (s.moveConds_entry_other _ f fun k _ own => ?_)
  obtain ⟨-, _⟩ | ⟨-, _⟩ := mem_slotsOf.mp own <;> omega

section
variable {s : State} {ch : MonChannel} {f : CondId → Cond} (outside : ∀ k, k ∉ condsOf ch → f k = s.mon.cond k)
include outside

theorem State.sampled_cond (k : CondId) : (s.sampled ch f).mon.cond k = f k := by
  rw [State.sampled_mon, State.moveConds_cond]
  split
  case isTrue => rfl
  case isFalse other => exact (outside k other).symm

theorem State.mem_condsOf_of_changed {k : CondId} (h : (f k).raised ≠ (s.mon.cond k).raised) : k ∈ condsOf ch := by
  by_contra other
  exact h (congrArg Cond.raised (outside k other))

theorem State.sampled_hasAttention :
    hasAttention (s.sampled ch f) .monitor = true
      ↔ hasAttention s .monitor = true ∨ ∃ k, (f k).raised ≠ (s.mon.cond k).raised := by
  have derived : hasAttention (s.sampled ch f) .monitor = hasAttention (s.moveConds (condsOf ch) f) .monitor :=
    monitorCauseKept.of_keptBut (State.deriveBoarding_touches _).1 (by decide)
  rw [derived, s.moveConds_hasAttention (condsOf_nodup ch)]
  refine or_congr_right (exists_congr fun k => ⟨And.right, fun changed => ⟨?_, changed⟩⟩)
  exact State.mem_condsOf_of_changed outside changed

theorem State.sampled_entry_own {k : CondId} {n : Nat} (own : n ∈ slotsOf k) :
    (s.sampled ch f).entry n = (s.moveCond k (f k)).entry n :=
  (State.deriveBoarding_entry _ n).trans (s.moveConds_entry_own ch outside own)

theorem State.sampled_entry_of_raised {k : CondId} {n : Nat} (own : n ∈ slotsOf k) (geo : s.hasGeometry = true)
    (length : s.tsr.table.length = 32) (was : (s.mon.cond k).raised = false) (raised : (f k).raised = true) :
    (s.sampled ch f).entry n = s.ownEntry k n :=
  (State.sampled_entry_own outside own).trans (State.moveCond_entry_of_raised geo length own was raised)

theorem State.sampled_entry_of_cleared {k : CondId} {n : Nat} (own : n ∈ slotsOf k)
    (was : (s.mon.cond k).raised = true) (clear : (f k).raised = false) : (s.sampled ch f).entry n = none :=
  (State.sampled_entry_own outside own).trans (State.moveCond_entry_of_cleared own was clear)

theorem State.sampled_entry_stands {k : CondId} {n : Nat} (own : n ∈ slotsOf k)
    (h : (f k).raised = (s.mon.cond k).raised ∨ ((s.mon.cond k).raised = false ∧ s.hasGeometry = false)) :
    (s.sampled ch f).entry n = s.entry n :=
  (State.sampled_entry_own outside own).trans (State.moveCond_entry_stands own h)

/-- A raised SLACK is handed over; what follows of the sample is OVERTENSION, which no longer meets a run (R59, R76). -/
theorem State.sampled_slack_touches (was : (s.mon.cond .slack).raised = false) (raised : (f .slack).raised = true) :
    touches [.monitor, .attention, .boarding] ((s.markCond .slack (f .slack)).takeCause .slackRope)
      (s.sampled ch f) := by
  have member := State.mem_condsOf_of_changed outside (k := .slack) (by rw [was, raised]; decide)
  obtain rfl : ch = .tension := by revert member; cases ch <;> simp [condsOf]
  rw [State.sampled_tension, State.moveCond_of_raised was raised]
  exact ((State.moveCond_overtension_of_stopped (State.takeCause_stopped _ _) _).trans
    (State.deriveBoarding_touches _)).mono (by decide)

/-- SLACK ROPE trips the line in service (R59, R100). -/
theorem State.sampled_slack_of_service (was : (s.mon.cond .slack).raised = false) (raised : (f .slack).raised = true)
    (parked : s.haul.line ≠ .parked) (tripped : s.haul.line ≠ .tripped) :
    let t := s.sampled ch f
    t.haul.line = .tripped ∧ t.osb.first = some .slackRope ∧ t.osb.further = 0 ∧ t.osb.hold = false
      ∧ t.osb.fromState = some s.haul.line := by
  have later := (State.sampled_slack_touches outside was raised).1
  rw [State.takeCause_of_service (s := s.markCond .slack (f .slack)) parked tripped] at later
  obtain ⟨line, first, fromState, -, further, -, -, -, -, -, -, -, -, hold, -⟩ :=
    State.enterTripped_entered (s.markCond .slack (f .slack)) .slackRope
  obtain ⟨firstStands, fromStands, -, furtherStands⟩ : _ ∧ _ ∧ _ ∧ _ := later .latch (by decide)
  exact ⟨(later .line (by decide)).symm.trans line, firstStands.symm.trans first, furtherStands.symm.trans further,
    ((later .hold (by decide)).symm.trans hold).trans (Bool.and_false _), fromStands.symm.trans fromState⟩

/-- SLACK ROPE joins the further causes in TRIPPED (R59, R100). -/
theorem State.sampled_slack_of_tripped (was : (s.mon.cond .slack).raised = false) (raised : (f .slack).raised = true)
    (tripped : s.haul.line = .tripped) :
    let t := s.sampled ch f
    t.haul.line = .tripped ∧ t.osb.first = s.osb.first ∧ t.osb.fromState = s.osb.fromState
      ∧ (if s.osb.first = some .slackRope ∨ causeIn s.osb.further .slackRope then
          samePart .latch s t ∧ samePart .hold s t
        else t.osb.hold = false ∧ hasAttention t .trip = true
          ∧ ∀ d : TripCause, causeIn t.osb.further d = (causeIn s.osb.further d || decide (d = .slackRope))) := by
  have later := State.sampled_slack_touches outside was raised
  have taken := State.takeCause_of_tripped (s := s.markCond .slack (f .slack)) tripped .slackRope
  split
  case isTrue latched =>
    rw [taken.trans (if_pos latched)] at later
    have latch : samePart .latch s (s.sampled ch f) := later.1 .latch (by decide)
    obtain ⟨first, fromState, -⟩ := id latch
    exact ⟨(later.1 .line (by decide)).symm.trans tripped, first.symm, fromState.symm, latch,
      later.1 .hold (by decide)⟩
  case isFalse new =>
    rw [taken.trans (if_neg new), State.dropHold_eq] at later
    obtain ⟨first, fromState, -, further⟩ : _ ∧ _ ∧ _ ∧ _ := later.1 .latch (by decide)
    exact ⟨(later.1 .line (by decide)).symm.trans tripped, first.symm, fromState.symm,
      (later.1 .hold (by decide)).symm.trans (Bool.and_false _),
      later.2.hasAttention (State.hasAttention_raise _ .trip),
      fun d => (congrArg (causeIn · d) further.symm).trans (causeIn_causeInsert _ _ d)⟩

/-- SLACK ROPE is ignored in PARKED (R59, R100). -/
theorem State.sampled_slack_of_parked (was : (s.mon.cond .slack).raised = false) (raised : (f .slack).raised = true)
    (parked : s.haul.line = .parked) :
    let t := s.sampled ch f
    t.haul.line = .parked ∧ samePart .latch s t ∧ samePart .hold s t := by
  have later := (State.sampled_slack_touches outside was raised).1
  rw [State.takeCause_of_parked (s := s.markCond .slack (f .slack)) parked (by decide)] at later
  exact ⟨(later .line (by decide)).symm.trans parked, later .latch (by decide), later .hold (by decide)⟩

/-- A raised OVERTENSION ends a run where SLACK stands (R59, R76). -/
theorem State.sampled_overtension (was : (s.mon.cond .overtension).raised = false)
    (raised : (f .overtension).raised = true) (slack : (f .slack).raised = (s.mon.cond .slack).raised)
    (running : s.running = true) : enteredHalted .overtension s (s.sampled ch f) := by
  have member := State.mem_condsOf_of_changed outside (k := .overtension) (by rw [was, raised]; decide)
  obtain rfl : ch = .tension := by revert member; cases ch <;> simp [condsOf]
  rw [State.sampled_tension, State.moveCond_of_same slack]
  exact State.moveCond_overtension_halts (s := s.setCond .slack (f .slack)) running was raised

end

/-- A sample that raises neither SLACK nor, in a run, OVERTENSION acts on nothing but the monitor and its entries. -/
theorem State.sampled_touches {s : State} (ch : MonChannel) {f : CondId → Cond}
    (slack : (f .slack).raised = (s.mon.cond .slack).raised ∨ (f .slack).raised = false)
    (overtension : (f .overtension).raised = (s.mon.cond .overtension).raised ∨ (f .overtension).raised = false
      ∨ s.running = false) :
    touches [.monitor, .attention, .restrictions, .boarding] s (s.sampled ch f) := by
  suffices conds : touches [.monitor, .attention, .restrictions] s (s.moveConds (condsOf ch) f) from
    (conds.trans (State.deriveBoarding_touches _)).mono (by decide)
  cases ch with
  | wind | rail | motor => exact s.moveConds_touches _ f (by decide)
  | tension =>
    have first := State.moveCond_touches_of_not_raised slack
    refine first.step ?_
    rcases overtension with same | clear | stopped
    · refine State.moveCond_touches_of_not_raised (.inl (same.trans ?_))
      rw [State.moveCond_cond]
      rfl
    · exact State.moveCond_touches_of_not_raised (.inr clear)
    · have line : s.haul.line = (s.moveCond .slack (f .slack)).haul.line := first.1 .line (by decide)
      refine (State.moveCond_overtension_of_stopped ?_ _).mono (by decide)
      rwa [State.running, ← line]

theorem readingFaulted_eq (r : Nat) : readingFaulted r = decide (r ≤ 639 ∨ 4081 ≤ r) := by
  rw [readingFaulted, Bool.decide_or]

/-- A sample is taken at its deadline: the reading, the conditions of the channel, the boarding states (R49). -/
theorem execMonitorSample_eq (ch : MonChannel) (x : BitVec 12) (s : State) :
    let bad := decide (x.toNat ≤ 639 ∨ 4081 ≤ x.toNat)
    let v := scaledValue (s.scale ch).1 (s.scale ch).2 x.toNat
    exec (.monitorSample ch x) s
      = .next (((s.advance (s.mon.channel ch).due).takeReading ch x.toNat bad v).sampled ch
          (s.sampledCond ch bad v)) := by
  intro bad v
  have sample := (s.advance (s.mon.channel ch).due).sampleChannel_eq ch x.toNat
  rw [readingFaulted_eq] at sample
  exact congrArg (fun t : State => Host.Outcome.next t.deriveBoarding) sample

/-- Settles O49: the sample is its reading and then each condition of the channel takes its value, with MONITOR and its
effect where it changes; each entry follows the one condition that owns it. -/
theorem monitorSampleEvaluatesItsConditions : Obligations.MonitorSampleEvaluatesItsConditions := by
  intro ch x s r c bad v4 v20 v good after
  have run : exec (.monitorSample ch x) s
      = .next (((s.advance c.due).takeReading ch r bad v).sampled ch after) := execMonitorSample_eq ch x s
  have reading : touches [.time, .monitor, .attention] s ((s.advance c.due).takeReading ch r bad v) :=
    (s.advance_touches c.due).trans ((s.advance c.due).takeReading_touches ch r bad v)
  have cond : ∀ k, ((s.advance c.due).takeReading ch r bad v).mon.cond k = s.mon.cond k :=
    (s.advance c.due).takeReading_cond ch r bad v
  have channel (d : MonChannel) : ((s.advance c.due).takeReading ch r bad v).mon.channel d
      = if d = ch then c.read r bad v else s.mon.channel d :=
    (congrArg (MonState.channel · d) ((s.advance c.due).takeReading_mon ch r bad v)).trans
      ((s.advance c.due).setMonChannel_channel ch d _)
  have raises : hasAttention ((s.advance c.due).takeReading ch r bad v) .monitor = true
      ↔ hasAttention s .monitor = true ∨ c.fault ≠ bad := (s.advance c.due).takeReading_hasAttention ch r bad v
  obtain ⟨m, a, eq⟩ := (s.advance c.due).takeReading_eq ch r bad v
  rw [eq] at run reading cond channel raises
  generalize hw : ({ s.advance c.due with mon := m, lnk := { (s.advance c.due).lnk with attention := a } } : State) = w
    at run reading cond channel raises
  have outside (k : CondId) (other : k ∉ condsOf ch) : after k = w.mon.cond k := (if_pos other).trans (cond k).symm
  have was (k : CondId) : (w.mon.cond k).raised = (s.mon.cond k).raised := congrArg Cond.raised (cond k)
  have slackWas : s.mon.slack.raised = (w.mon.cond .slack).raised := (was .slack).symm
  have overWas : s.mon.overtension.raised = (w.mon.cond .overtension).raised := (was .overtension).symm
  have frostWas : s.mon.frost.raised = (w.mon.cond .frost).raised := (was .frost).symm
  have windWas : s.mon.w1.raised = (w.mon.cond .w1).raised := (was .w1).symm
  rw [slackWas, overWas, frostWas, windWas]
  have five : 5 ∈ slotsOf .frost := by decide
  subst hw
  refine ⟨_, run, State.sampled_now _ ch after, State.deriveBoarding_boardingInv _, ?channel,
    fun d other => ?otherChannel, fun k => State.sampled_cond outside k, ?attention,
    fun n beyond => State.sampled_entry_other _ ch after beyond,
    fun clear raised geo length => State.sampled_entry_of_raised outside five geo length clear raised,
    State.sampled_entry_of_cleared outside five, State.sampled_entry_stands outside five,
    fun clear raised geo length n h =>
      State.sampled_entry_of_raised outside (mem_slotsOf_w1 h) geo length clear raised,
    fun raised clear n h => State.sampled_entry_of_cleared outside (mem_slotsOf_w1 h) raised clear,
    fun stands n h => State.sampled_entry_stands outside (mem_slotsOf_w1 h) stands,
    fun clear raised => ⟨fun parked tripped => State.sampled_slack_of_service outside clear raised parked tripped,
      fun tripped => State.sampled_slack_of_tripped outside clear raised tripped,
      fun parked => State.sampled_slack_of_parked outside clear raised parked⟩,
    State.sampled_overtension outside, fun slack overtension => ?kept⟩
  case channel => rw [State.sampled_channel, channel, if_pos rfl]; rfl
  case otherChannel => rw [State.sampled_channel, channel, if_neg other]
  case attention =>
    rw [State.sampled_hasAttention outside, raises, or_assoc]
    simp only [was]
  case kept => exact ((reading.trans (State.sampled_touches ch slack overtension)).mono (by decide)).1

end Sys2Proof.Machine
end

-- ==== A claim on a record of group 0 ====
section
/-! O13 fails: nothing that `admissionInv` holds of the entitlement table says that a record's group is at least 1, and a
claim opened on a record of group 0 reserves no person, which `claimsInv` forbids. (ADD and AMEND refuse group 0, R141 and
R143: the invariant lacks the clause that would keep it.) -/

namespace Sys2Proof.Machine

/-- `Tests.admitting` with the record of slot 2,084 of group 0: DWELL, car A in BOARDING at station 1, the response of
gate 3 awaited. -/
def admittingGroupZero : State :=
  { Tests.admitting with ent := { table :=
    [(2084, { Tests.multi with group := 0 }), (2085, { Tests.multi with media := 0x209 })] } }

/-- The same state with the frame PRESENT of gate 3, toggle 1, of the record of slot 2,084 first in its queue (the frame
of section 9.10.1, step 1). -/
def presentingGroupZero : State :=
  admittingGroupZero.push (.gateResponse true [0x03, 0x03, 0x12, 0x34, 0x56, 0x78, 0x9A, 0x0E, 0x00])

theorem presentingGroupZero_shapeInv : shapeInv presentingGroupZero := by
  change shapeInv admittingGroupZero
  unfold shapeInv
  decide +kernel

theorem presentingGroupZero_tableInv : tableInv presentingGroupZero := by
  change tableInv admittingGroupZero
  unfold tableInv
  decide +kernel

theorem presentingGroupZero_recordInv : recordInv presentingGroupZero := by
  change (LineState.dwell = .dwell ∨ _ ∨ _) ∧ 1 ≤ 3 ∧ 2 = 3 - 1 ∧ false = false ∧ false = false
  exact ⟨.inl rfl, by decide, rfl, rfl, rfl⟩

theorem presentingGroupZero_runInv : runInv presentingGroupZero := by
  change runInv admittingGroupZero
  unfold runInv
  decide +kernel

theorem presentingGroupZero_boardingInv : boardingInv presentingGroupZero := by
  change boardingInv admittingGroupZero
  unfold boardingInv
  decide +kernel

theorem presentingGroupZero_countsInv (c : Car) : countsInv presentingGroupZero c := by
  cases c with
  | a =>
    change 0 = heldFor .a [] ∧ 0 ≤ 27 ∧ 27 ≤ 250 ∧ 27 - 0 + 0 ≤ 30 ∧ 30 ≤ admittingGroupZero.capacity
      ∧ (StopPhase.boarding = .arrived ∨ StopPhase.boarding = .alighting → 27 = 0 ∧ 0 = 0)
      ∧ (StopPhase.boarding = .ready → 0 = 0)
    decide +kernel
  | b =>
    change 0 = heldFor .b [] ∧ 0 ≤ 0 ∧ 0 ≤ 250 ∧ 0 - 0 + 0 ≤ 30 ∧ 30 ≤ admittingGroupZero.capacity
      ∧ (StopPhase.ready = .arrived ∨ StopPhase.ready = .alighting → 0 = 0 ∧ 0 = 0)
      ∧ (StopPhase.ready = .ready → 0 = 0)
    decide +kernel

theorem presentingGroupZero_claimsInv : claimsInv presentingGroupZero := by
  change claimsInv admittingGroupZero
  unfold claimsInv
  decide +kernel

/-- The state that the presentation is executed in meets every part of the invariant. -/
theorem presentingGroupZero_admissionInv : admissionInv presentingGroupZero :=
  ⟨presentingGroupZero_shapeInv, presentingGroupZero_tableInv, presentingGroupZero_recordInv,
    presentingGroupZero_runInv, presentingGroupZero_boardingInv, presentingGroupZero_countsInv .a,
    presentingGroupZero_countsInv .b, presentingGroupZero_claimsInv⟩

/-- What the step leaves: claim 17 at gate 3, of 0 persons. -/
theorem presentingGroupZero_opens :
    ∃ t, step presentingGroupZero = .next t ∧ t.adm.claims = [⟨17, 3, .a, 2084, 0x123456789A, 0, 13000000⟩] :=
  ⟨_, rfl, by decide +kernel⟩

/-- Refutes O13: `claimsInv` asks that every claim hold a person, and PRESENT of a record of group 0, which
`admissionInv` does not exclude from the table, opens a claim of 0 persons. -/
theorem not_claimsRecordsAndTableAgree : ¬ Obligations.ClaimsRecordsAndTableAgree := by
  unfold Obligations.ClaimsRecordsAndTableAgree
  intro h
  obtain ⟨t, hstep, hclaims⟩ := presentingGroupZero_opens
  have hparams : paramsWf presentingGroupZero.params = true := by decide +kernel
  obtain ⟨-, -, -, -, -, -, -, hinv⟩ := h _ t hparams presentingGroupZero_admissionInv hstep
  obtain ⟨-, -, hclaim, -⟩ := hinv
  obtain ⟨-, -, -, hpersons, -⟩ := hclaim ⟨17, 3, .a, 2084, 0x123456789A, 0, 13000000⟩ (by simp [hclaims])
  exact absurd hpersons (by decide)

end Sys2Proof.Machine
end

-- ==== Entries to HALTED and DWELL ====
section
/-! What an entry to HALTED or DWELL leaves where the stop records are not tested once more, as a command or a timer
makes it (R63, R66, R74, R76, R116), and how far each survives a later change. -/

namespace Sys2Proof.Machine

/-! ### The boarding states apart -/

@[simp] theorem State.deriveBoarding_haul (s : State) : s.deriveBoarding.haul = s.haul := by
  obtain ⟨b, p, e⟩ := s.deriveBoarding_eq
  rw [e]
@[simp] theorem State.deriveBoarding_osb (s : State) : s.deriveBoarding.osb = s.osb := by
  obtain ⟨b, p, e⟩ := s.deriveBoarding_eq
  rw [e]
@[simp] theorem State.deriveBoarding_stp (s : State) : s.deriveBoarding.stp = s.stp := by
  obtain ⟨b, p, e⟩ := s.deriveBoarding_eq
  rw [e]
@[simp] theorem State.deriveBoarding_lnk (s : State) : s.deriveBoarding.lnk = s.lnk := by
  obtain ⟨b, p, e⟩ := s.deriveBoarding_eq
  rw [e]
@[simp] theorem State.deriveBoarding_now (s : State) : s.deriveBoarding.now = s.now := by
  obtain ⟨b, p, e⟩ := s.deriveBoarding_eq
  rw [e]

/-! ### The entry to HALTED -/

/-- The entry to HALTED leaves no record to test (R76, R117). -/
theorem State.enterHalted_derived (s : State) (h : HaltCause) :
    enteredHalted h s (s.enterHalted h).deriveBoarding := by
  have untested : (s.enterHalted h).testBoth = s.enterHalted h :=
    State.testBoth_of_absent (State.discardRecords_absent (s.halting h))
  have halted := s.enterHalted_entered h
  rwa [untested] at halted

theorem State.enterHalted_enters (s : State) (h : HaltCause) : enteredHalted h s (s.enterHalted h) := by
  simpa only [enteredHalted, hasAttention, State.record, State.car, State.deriveBoarding_haul,
    State.deriveBoarding_osb, State.deriveBoarding_spd, State.deriveBoarding_stp, State.deriveBoarding_lnk]
    using s.enterHalted_derived h

/-- An entry to HALTED speaks of these parts alone. -/
theorem enteredHalted.of_touches {h : HaltCause} {parts : List Part} {s t u : State} (e : enteredHalted h s t)
    (hu : touches parts t u)
    (hp : ∀ p ∈ [Part.line, .haltCause, .run, .speeds, .torque, .outputs, .rollback, .records], p ∉ parts) :
    enteredHalted h s u := by
  obtain ⟨line, cause, run, perm, dem, sup, due, drive, safety, service, roll, a, b, att⟩ := e
  obtain ⟨perm', sup', dem', -⟩ : _ ∧ _ ∧ _ ∧ _ := hu.1 .speeds (hp _ (by decide))
  obtain ⟨-, due'⟩ : _ ∧ _ := hu.1 .torque (hp _ (by decide))
  obtain ⟨drive', safety', service'⟩ : _ ∧ _ ∧ _ := hu.1 .outputs (hp _ (by decide))
  have record := hu.1.record (hp _ (by decide))
  exact ⟨(hu.1 .line (hp _ (by decide))).symm.trans line, (hu.1 .haltCause (hp _ (by decide))).symm.trans cause,
    (hu.1 .run (hp _ (by decide))).symm.trans run, perm'.symm.trans perm, dem'.symm.trans dem, sup'.symm.trans sup,
    due'.symm.trans due, drive'.symm.trans drive, safety'.symm.trans safety, service'.symm.trans service,
    (hu.1 .rollback (hp _ (by decide))).symm.trans roll, (record .a).trans a, (record .b).trans b,
    hu.2.hasAttention att⟩

/-- Of the state before it, an entry to HALTED reads the run record and v_sup (R76). -/
theorem enteredHalted.from {h : HaltCause} {s u t : State} (e : enteredHalted h u t)
    (run : u.haul.run = s.haul.run) (sup : u.haul.vSup = s.haul.vSup) : enteredHalted h s t := by
  obtain ⟨line, cause, run', perm, dem, sup', rest⟩ := e
  exact ⟨line, cause, run'.trans run, perm, dem, sup'.trans sup, rest⟩

/-! ### The entry to DWELL -/

/-- The entry to DWELL with its new records as their own tests leave them (R66, R78, R116, R120). -/
theorem State.enterDwell_derived (s : State) (k : Nat) : enteredDwell k s (s.enterDwell k).deriveBoarding := by
  have later : touches [.records, .loads, .attention, .boarding] (s.dwelling.newRecords k)
      (s.enterDwell k).deriveBoarding :=
    (((State.testArrived_touches _ .a).step (State.testArrived_touches _ .b)).trans
      (State.deriveBoarding_touches _)).mono (by decide)
  have all := (s.dwelling.newRecords_touches k).trans later
  have derived (c : Car) := (State.deriveBoarding_touches (s.enterDwell k)).1.record (by decide) c
  obtain ⟨alarmA, alarmB⟩ : _ ∧ _ := later.1 .alarms (by decide)
  refine ⟨s.dwelling_stands.of_touches all (by decide), (all.1 .haltCause (by decide)).symm,
    (derived .a).trans (s.enterDwell_record k .a), (derived .b).trans (s.enterDwell_record k .b),
    alarmA.symm, alarmB.symm, fun h => ?_, later.2.hasAttention (State.hasAttention_raise _ _)⟩
  have service : s.dwelling.geo.inspection = false :=
    (SameBerthing.of_keptBut s.dwelling_touches.1 (by decide)).inspection.trans h
  obtain ⟨a, b⟩ : samePart .loads s (s.enterDwell k).deriveBoarding :=
    ((s.dwelling_touches.1 .loads (by decide)).trans (State.createRecords_loads service k)).trans
      ((State.deriveBoarding_touches _).1 .loads (by decide))
  exact ⟨a.symm, b.symm⟩

/-- An entry to DWELL says nothing of the link's result. -/
theorem enteredDwell.reply {k : Nat} {s t : State} (e : enteredDwell k s t) (code : Byte) (rc : ResultCode)
    (d : List Byte) : enteredDwell k s (t.reply code rc d) := e

/-! ### A return to DWELL -/

/-- A pending alarm moves into the car's record where there is one (R74, R75, R107). -/
theorem State.moveAlarm_record (s : State) (c : Car) :
    (s.moveAlarm c).record c
      = (s.record c).map fun r => { r with alarm := r.alarm || (s.car c).pendingAlarm } := by
  cases h : s.record c with
  | none => simp only [State.moveAlarm, h, Option.map_none]
  | some r => simp only [State.moveAlarm, h, Option.map_some]; cases c <;> rfl

theorem State.moveAlarm_otherCar (s : State) (c : Car) : (s.moveAlarm c).car (otherCar c) = s.car (otherCar c) := by
  unfold State.moveAlarm
  split
  · exact s.setCar_other c _
  · rfl

theorem State.returnToDwell_eq (s : State) (h : HaltCause) :
    s.returnToDwell h = ((s.dwelling.setHalt h).moveAlarm .a).moveAlarm .b := rfl

theorem keptBut.pendingAlarm {parts : List Part} {s t : State} (h : keptBut parts s t) (hp : Part.alarms ∉ parts)
    (c : Car) : (t.car c).pendingAlarm = (s.car c).pendingAlarm := by
  obtain ⟨a, b⟩ : _ ∧ _ := h .alarms hp
  cases c with
  | a => exact a.symm
  | b => exact b.symm

/-- The return to DWELL keeps each record, with its car's pending alarm (R74, R75). -/
theorem State.returnToDwell_record (s : State) (h : HaltCause) (c : Car) :
    (s.returnToDwell h).record c
      = (s.record c).map fun r => { r with alarm := r.alarm || (s.car c).pendingAlarm } := by
  have kept := (s.dwelling_touches.trans (State.setHalt_touches _ h)).1
  rw [← kept.record (by decide) c, ← kept.pendingAlarm (by decide) c, State.returnToDwell_eq]
  generalize s.dwelling.setHalt h = u
  cases c with
  | a => exact (congrArg CarState.record (State.moveAlarm_otherCar _ .b)).trans (u.moveAlarm_record .a)
  | b =>
    have other : (u.moveAlarm .a).car .b = u.car .b := u.moveAlarm_otherCar .a
    rw [State.moveAlarm_record, State.record, other, State.record]

/-- The return to DWELL (R74, R75). -/
theorem State.returnToDwell_stands (s : State) (h : HaltCause) : standsInDwell s (s.returnToDwell h) :=
  s.dwelling_stands.of_touches
    (((State.setHalt_touches _ h).trans (State.moveAlarm_touches _ .a)).trans (State.moveAlarm_touches _ .b)) (by decide)

theorem State.returnToDwell_haltCause (s : State) (h : HaltCause) : (s.returnToDwell h).haul.haltCause = h :=
  (((State.moveAlarm_touches (s.dwelling.setHalt h) .a).trans (State.moveAlarm_touches _ .b)).1 .haltCause
    (by decide)).symm

end Sys2Proof.Machine
end

-- ==== Torque-ready, its timeout and the PWM period ====
section
/-! What the torque-ready input leaves in STARTING and elsewhere, how its timeout ends a start, and the PWM period (R64,
R73, R74). -/

namespace Sys2Proof.Machine

/-- The entry to MOVING once torque is ready (R73). -/
def State.movingOff (s : State) : State := (s.stopTorque.discardRecords.setLine .moving).deriveBoarding

theorem State.movingOff_record (s : State) (c : Car) : s.movingOff.record c = none := by
  rw [State.movingOff, (State.deriveBoarding_touches _).1.record (by decide), State.setLine_record]
  exact s.stopTorque.discardRecords_absent c

/-- The entry to MOVING: the outputs and the demand follow the line, the other speeds and the run record stay (R64, R73,
R86, R102). -/
theorem State.movingOff_moves (s : State) :
    s.movingOff.haul.line = .moving ∧ s.movingOff.haul.torqueReady = s.haul.torqueReady
      ∧ s.movingOff.haul.torqueDue = none ∧ s.movingOff.haul.driveEnable = true
      ∧ s.movingOff.osb.safetyReleased = true ∧ s.movingOff.osb.serviceReleased = true
      ∧ s.movingOff.haul.vDem = 0 ∧ s.movingOff.haul.rampFrom = 0 ∧ s.movingOff.haul.vPerm = s.haul.vPerm
      ∧ s.movingOff.haul.vSup = s.haul.vSup ∧ s.movingOff.haul.run = s.haul.run
      ∧ hasAttention s.movingOff .lineState = true := by
  have discarded := (State.discardRecords_touches s.stopTorque).1
  obtain ⟨ready, due⟩ : _ ∧ _ := discarded .torque (by decide)
  obtain ⟨perm, sup, -, -⟩ : _ ∧ _ ∧ _ ∧ _ := discarded .speeds (by decide)
  have run : s.haul.run = s.stopTorque.discardRecords.haul.run := discarded .run (by decide)
  have raised := (State.deriveBoarding_touches (s.stopTorque.discardRecords.setLine .moving)).2.hasAttention
    (State.setLine_hasAttention _ .moving)
  obtain ⟨b, p, e⟩ := (s.stopTorque.discardRecords.setLine .moving).deriveBoarding_eq
  rw [State.movingOff]
  rw [e] at raised ⊢
  exact ⟨rfl, ready.symm, due.symm, rfl, rfl, rfl, rfl, rfl, perm.symm, sup.symm, run.symm, raised⟩

theorem execTorqueReadyTimeout_of_due {s : State} {due : Nat} (h : s.haul.torqueDue = some due) :
    execTorqueReadyTimeout s
      = .next ((s.advance due).stopTorque.endStart .startFailed .startFailed).deriveBoarding := by
  simp only [execTorqueReadyTimeout, h, onExpiry]

/-- A start ends in the line state that it was made from (R74, R75). -/
theorem State.endStart_of_run {s : State} {r : RunRecord} (hr : s.haul.run = some r) (a b : HaltCause) :
    s.endStart a b = if r.origin = .dwell then s.returnToDwell a else s.enterHalted b := by
  simp only [State.endStart, hr]

/-- A failed or ended start from DWELL returns there with the same records (R74, R75). -/
theorem State.returnToDwell_derived (s : State) (h : HaltCause) :
    standsInDwell s (s.returnToDwell h).deriveBoarding ∧ (s.returnToDwell h).deriveBoarding.haul.haltCause = h
      ∧ ∀ c, (s.returnToDwell h).deriveBoarding.record c
          = (s.record c).map fun q => { q with alarm := q.alarm || (s.car c).pendingAlarm } := by
  have derived := State.deriveBoarding_touches (s.returnToDwell h)
  exact ⟨(s.returnToDwell_stands h).of_touches derived (by decide),
    (derived.1 .haltCause (by decide)).symm.trans (s.returnToDwell_haltCause h),
    fun c => (derived.1.record (by decide) c).trans (s.returnToDwell_record h c)⟩

/-- Settles O53: the row of torque-ready by the line state, and its timeout by where the start was made from. -/
theorem startsEndInMovingOrFail : Obligations.StartsEndInMovingOrFail := by
  intro s
  refine ⟨fun ready => ?active, rfl, fun idle still => ?level, fun idle starting => ?moves, fun due r h hr => ?fails, rfl⟩
  case active => simp only [exec, execTorqueReady, ready, if_true]
  case level => simp only [exec, execTorqueReady, idle, still, if_false, Bool.false_eq_true]
  case moves =>
    let u : State := { s with haul := { s.haul with torqueReady := true } }
    have row : exec .torqueReady s = .next u.movingOff :=
      congrArg Host.Outcome.next ((if_neg (by simp [idle])).trans (if_pos starting))
    obtain ⟨line, ready, due, drive, safety, service, dem, ramp, perm, sup, run, raised⟩ := u.movingOff_moves
    exact ⟨_, row, State.deriveBoarding_boardingInv _, line, ready, due, u.movingOff_record .a, u.movingOff_record .b,
      drive, safety, service, dem, ramp, perm, sup, run, raised⟩
  case fails =>
    intro u
    have ended := State.endStart_of_run (s := u.stopTorque) hr .startFailed .startFailed
    have touched := (u.stopTorque_touches.trans (State.endStart_touches _ .startFailed .startFailed)).trans
      (State.deriveBoarding_touches _)
    refine ⟨_, execTorqueReadyTimeout_of_due h, (touched.1 .time (by decide)).symm,
      State.deriveBoarding_boardingInv _, fun dwell => ?_, fun halted => ?_⟩
    · rw [if_pos dwell] at ended
      exact ended ▸ u.stopTorque.returnToDwell_derived .startFailed
    · rw [if_neg (by simp [halted])] at ended
      exact ended ▸ u.stopTorque.enterHalted_derived .startFailed

end Sys2Proof.Machine
end

-- ==== The downlink and the car link timeout ====
section
/-! The downlink frame as it is built, and what a lost car link leaves of its car, of the other car and of the line (R76,
R112, R114, R126, R132, section 11.6). -/

namespace Sys2Proof.Machine

/-! ### A car's state, part by part -/

/-- A car's state is its parts. -/
theorem CarState.eq_of_parts {x y : CarState} (h : ∀ p ∈ [Part.links, .reports, .alarms, .admitted, .evac],
    sameCarPart p x y) : y = { x with record := y.record } := by
  obtain ⟨live, linkDue, downDue, kept, lastFrame⟩ : _ ∧ _ ∧ _ ∧ _ ∧ _ := h .links (by decide)
  have report : x.report = y.report := h .reports (by decide)
  have alarm : x.pendingAlarm = y.pendingAlarm := h .alarms (by decide)
  have admitted : x.admitted = y.admitted := h .admitted (by decide)
  obtain ⟨left, right⟩ : _ ∧ _ := h .evac (by decide)
  rw [live, linkDue, downDue, kept, lastFrame, report, alarm, admitted, left, right]

/-- A car's state, but for the stop record, stays where each of its parts does. -/
theorem keptBut.car {parts : List Part} {s t : State} (h : keptBut parts s t)
    (hp : ∀ p ∈ [Part.links, .reports, .alarms, .admitted, .evac], p ∉ parts) (c : Car) :
    t.car c = { s.car c with record := t.record c } := by
  refine CarState.eq_of_parts fun p hc => ?_
  have same := h p (hp p hc)
  simp only [List.mem_cons, List.not_mem_nil, or_false] at hc
  rcases hc with rfl | rfl | rfl | rfl | rfl <;> cases c <;> first | exact same.1 | exact same.2

/-- HALTED keeps the evacuation releases, so of a car its stop record alone goes (R76, R117, R132). -/
theorem State.enterHalted_car (s : State) (h : HaltCause) (c : Car) :
    (s.enterHalted h).car c = { s.car c with record := none } := by
  have discarded := (State.discardRecords_touches (s.halting h)).1.car (by decide) c
  have absent := (s.halting h).discardRecords_absent c
  rw [State.enterHalted_eq, discarded, absent]
  cases c <;> rfl

/-- An event of R76 leaves a car's state but for the stop record, and that too outside RUNNING. -/
theorem State.haltEvent_car (s : State) (h : HaltCause) (c : Car) :
    (s.haltEvent h).car c = { s.car c with record := if s.running then none else s.record c } := by
  unfold State.haltEvent
  split
  · exact s.enterHalted_car h c
  · rfl

/-! ### The downlink -/

/-- The first byte of a downlink frame names the car (section 11.6). -/
theorem carCode_byte (c : Car) : be1 (carCode c + 1) = [if c = .a then 1 else 2] := by cases c <;> rfl

/-- The frame of a downlink, byte by byte (R112, section 11.6). -/
theorem State.downlinkFrame_eq (s : State) (c : Car) :
    s.downlinkFrame c = withCrc [if c = .a then 1 else 2, nextSeq (s.car c).kept,
      BitVec.ofNat 8 (bits [s.released c .left, !s.released c .left, s.released c .right, !s.released c .right,
        s.osb.hold]), BitVec.ofNat 8 (lineCode s.haul.line)] := by
  simp only [State.downlinkFrame, carCode_byte, be1_eq, List.cons_append, List.nil_append]

/-! ### The car link timeout -/

/-- The link is LOST and the car's evacuations are over (R114, R132). -/
def State.linkLost (s : State) (c : Car) : State :=
  (s.setCar c { s.car c with live := false, linkDue := none, evacLeft := false, evacRight := false }).raise .carLink

theorem State.linkLost_car (s : State) (c : Car) :
    (s.linkLost c).car c = { s.car c with live := false, linkDue := none, evacLeft := false, evacRight := false } := by
  cases c <;> rfl

theorem State.linkLost_otherCar (s : State) (c : Car) : (s.linkLost c).car (otherCar c) = s.car (otherCar c) := by
  cases c <;> rfl

theorem State.linkLost_record (s : State) (c k : Car) : (s.linkLost c).record k = s.record k := by
  cases c <;> cases k <;> rfl

theorem State.linkLost_haul (s : State) (c : Car) : (s.linkLost c).haul = s.haul := by cases c <;> rfl

theorem execCarLinkTimeout_of_due {c : Car} {s : State} {due : Nat} (h : (s.car c).linkDue = some due) :
    execCarLinkTimeout c s = .next (((s.advance due).linkLost c).haltEvent .carLink).deriveBoarding := by
  simp only [execCarLinkTimeout, h, onExpiry]
  rfl

/-- No side of a car without a link and an evacuation is released (R126). -/
theorem State.released_of_lost {s : State} {c : Car} (live : (s.car c).live = false)
    (left : (s.car c).evacLeft = false) (right : (s.car c).evacRight = false) (d : Side) : s.released c d = false := by
  have normal : s.normalRelease c d = false := by
    unfold State.normalRelease
    split
    · simp [live]
    · rfl
  rw [State.released, normal]
  cases d <;> simp [CarState.evac, left, right]

/-- Settles O54: the downlink by its definition, and the timeout car by car and by whether the line runs. -/
theorem carLinkTimersActOnOneCar : Obligations.CarLinkTimersActOnOneCar := by
  intro c s x seq l r
  refine ⟨?downlink, fun due h => ?timeout⟩
  case downlink =>
    refine ⟨_, rfl, (execDownlink_touches c s _ rfl).1, ?_, ?_, ?_⟩
    · cases c <;> rfl
    · exact State.setCar_other _ c _
    · rw [State.setCar_car, State.downlinkFrame_eq]
      cases c <;> rfl
  case timeout =>
    let u : State := { s with now := max s.now due }
    let v := u.linkLost c
    let w := v.haltEvent .carLink
    have row : exec (.carLinkTimeout c) s = .next w.deriveBoarding := execCarLinkTimeout_of_due h
    have derived := w.deriveBoarding_touches
    have vrunning : v.running = s.running := by rw [State.running, State.linkLost_haul]; rfl
    have car (k : Car) : w.deriveBoarding.car k = { v.car k with record := if s.running then none else s.record k } := by
      rw [derived.1.car (by decide), derived.1.record (by decide), State.record, v.haltEvent_car, vrunning,
        State.linkLost_record]
      rfl
    have own : w.deriveBoarding.car c = { x with
        live := false, linkDue := none, evacLeft := false, evacRight := false
        record := if s.running then none else s.record c } := by
      rw [car c, State.linkLost_car]
      cases c <;> rfl
    have other : w.deriveBoarding.car (otherCar c)
        = { s.car (otherCar c) with record := if s.running then none else s.record (otherCar c) } := by
      rw [car (otherCar c), State.linkLost_otherCar]
      cases c <;> rfl
    have touched := (v.haltEvent_touches .carLink).trans derived
    refine ⟨_, row, (touched.1 .time (by decide)).symm.trans (by cases c <;> rfl), State.deriveBoarding_boardingInv _,
      by rw [own], by rw [own], by rw [own], by rw [own], by rw [own], by rw [own],
      State.released_of_lost (by rw [own]) (by rw [own]) (by rw [own]),
      touched.2.hasAttention (State.hasAttention_raise _ _), fun running => ⟨?_, ?_⟩, fun still => ?_⟩
    · have halts : w = v.enterHalted .carLink := if_pos (vrunning.trans running)
      rw [halts]
      exact (v.enterHalted_derived .carLink).from (by rw [State.linkLost_haul]) (by rw [State.linkLost_haul])
    · rw [other, if_pos running]
    · have stays : w = v := if_neg (by simp [vrunning, still])
      have kept : keptBut [.boarding] v w.deriveBoarding := stays ▸ derived.1
      refine ⟨(kept .line (by decide)).symm.trans ?_, (kept .haltCause (by decide)).symm.trans ?_, ?_, ?_⟩
      · rw [State.linkLost_haul]
      · rw [State.linkLost_haul]
      · rw [State.record, own, still]; rfl
      · rw [other, still]; rfl

end Sys2Proof.Machine
end

-- ==== The claims of a discarded record ====
section
/-! What the discard of the stop records leaves of the claims, of the entitlement table and of the gates' memories, where
every claim has its record (R117, R148, R166, R170). -/

namespace Sys2Proof.Machine

/-! ### The lapse of one claim with its record absent -/

/-- The memory that a claim leaves at its gate where its stop record is absent (R166). -/
def State.absentMemory (s : State) (cl : Claim) : Memory :=
  ⟨cl.id, cl.media, cl.persons, ((s.gate cl.gate).bind (·.station)).getD 0, none⟩

/-- The lapse of a claim whose stop record is absent (R166). -/
def State.lapseAbsent (s : State) (cl : Claim) : State :=
  ((s.detachClaim cl.slot).dropClaim cl.id).modGate cl.gate fun g => { g with memory := some (s.absentMemory cl) }

/-- Without a stop record the lapse returns nothing to a held count (R166). -/
theorem State.lapseClaim_of_absent {s : State} {cl : Claim} (h : s.record cl.car = none) :
    s.lapseClaim cl = s.lapseAbsent cl := by
  have unmodified (f : StopRecord → StopRecord) : s.modRecord cl.car f = s := by simp only [State.modRecord, h]
  have unheld : s.lowerHeld cl.car cl.persons = s := by
    rw [State.lowerHeld, unmodified, State.tryReady]
    simp only [h]
  simp only [State.lapseClaim, unheld, h, Option.isSome_none, Bool.false_eq_true, if_false]
  rfl

theorem State.lapseAbsent_touches (s : State) (cl : Claim) : touches [.ent, .claims, .gates] s (s.lapseAbsent cl) :=
  ((s.detachClaim_touches _).trans (State.dropClaim_touches _ _)).trans (State.modGate_touches _ _ _)

/-- The claims of a car without a record lapse one after the other (R166). -/
theorem State.lapseClaims_of_absent {c : Car} (l : List Claim) (hl : ∀ x ∈ l, x.car = c) {s : State}
    (h : s.record c = none) : l.foldl State.lapseClaim s = l.foldl State.lapseAbsent s := by
  induction l generalizing s with
  | nil => rfl
  | cons x l ih =>
    obtain rfl : x.car = c := hl x (by simp)
    rw [List.foldl_cons, List.foldl_cons, State.lapseClaim_of_absent h]
    exact ih (fun y hy => hl y (by simp [hy])) (((s.lapseAbsent_touches x).1.record (by decide) _).trans h)

/-- The discard of a record that stands (R117, R170). -/
theorem State.discardRecord_of_record {s : State} {c : Car} {r : StopRecord} (h : s.record c = some r) :
    s.discardRecord c = ((s.adm.claims.filter fun x => x.car == c).foldl State.lapseAbsent
      (s.setRecord c none)).forgetRecord c := by
  simp only [State.discardRecord, h]
  rw [State.lapseClaims_of_absent _ (fun x hx => by simpa using (List.mem_filter.1 hx).2) (s.setRecord_record c none)]

/-- A discard leaves the load figures: no claim that lapses has a record (R117, R118, R166). -/
theorem State.discardRecord_touchesLess (s : State) (c : Car) :
    touches [.records, .ent, .claims, .gates] s (s.discardRecord c) := by
  cases h : s.record c with
  | none => simp only [State.discardRecord, h]; exact touches.refl _ s
  | some r =>
    rw [State.discardRecord_of_record h]
    exact (((s.setRecord_touches c none).trans (touches.foldl _ State.lapseAbsent_touches _ _)).trans
      (State.forgetRecord_touches _ c)).mono (by decide)

theorem State.discardRecords_touchesLess (s : State) :
    touches [.records, .ent, .claims, .gates] s s.discardRecords :=
  (s.discardRecord_touchesLess .a).step (State.discardRecord_touchesLess _ .b)

/-! ### The gates -/

theorem State.modGate_gate_other (s : State) {n k : Nat} (f : Gate → Gate) (h : n ≠ k) :
    (s.modGate k f).gate n = s.gate n := by
  unfold State.modGate
  split
  case h_2 => rfl
  case h_1 g hg =>
    by_cases hn : n = 0
    · simp [State.gate, hn]
    · have hk : k ≠ 0 := by rintro rfl; simp [State.gate] at hg
      simp only [State.gate, hn, if_false]
      exact List.getElem?_set_ne (by omega)

theorem State.modGate_gate_same (s : State) (k : Nat) (f : Gate → Gate) :
    (s.modGate k f).gate k = (s.gate k).map f := by
  unfold State.modGate
  split
  case h_2 h => rw [h, Option.map_none]
  case h_1 g hg =>
    by_cases hk : k = 0
    · simp [State.gate, hk] at hg
    · simp only [State.gate, hk, if_false] at hg ⊢
      rw [List.getElem?_set_self (by exact (List.getElem?_eq_some_iff.1 hg).1), hg, Option.map_some]

theorem State.forgetRecord_gate (s : State) (c : Car) (n : Nat) :
    (s.forgetRecord c).gate n = (s.gate n).map fun g =>
      { g with memory := g.memory.map fun m => if m.record = some c then { m with record := none } else m } := by
  simp only [State.gate, State.forgetRecord, List.getElem?_map]
  split <;> rfl

/-- Every gate address names a gate (R155). -/
theorem State.gate_isSome {s : State} (h : s.adm.gates.length = 16) {n : Nat} (h1 : 1 ≤ n) (h16 : n ≤ 16) :
    (s.gate n).isSome := by
  simp only [State.gate, show n ≠ 0 by omega, if_false]
  rw [List.getElem?_eq_getElem (by omega)]
  rfl

/-! ### The lapse of several claims -/

/-- What the lapse of these claims leaves, none of them with a stop record: they are gone from the list and from the
table, and each gate keeps its memory (R148, R166). -/
structure Lapsed (l : List Claim) (s t : State) : Prop where
  claims : t.adm.claims = s.adm.claims.filter fun y => decide (y.id ∉ l.map (·.id))
  ent (k : Nat) : entGet t.ent.table k
    = if k ∈ l.map (·.slot) then (entGet s.ent.table k).map fun r => { r with claim := none } else entGet s.ent.table k
  gate (n : Nat) : (t.gate n).isSome = (s.gate n).isSome
  station (n : Nat) : (t.gate n).bind (·.station) = (s.gate n).bind (·.station)
  memory : ∀ x ∈ l, (t.gate x.gate).bind (·.memory) = some (s.absentMemory x)
  kept (n : Nat) : n ∉ l.map (·.gate) → ∀ m, (s.gate n).bind (·.memory) = some m → m.record = none →
    (t.gate n).bind (·.memory) = some m

theorem Lapsed.nil (s : State) : Lapsed [] s s where
  claims := by simp
  ent k := by simp
  gate n := rfl
  station n := rfl
  memory := nofun
  kept n _ m h _ := h

theorem Lapsed.absentMemory {l : List Claim} {s t : State} (h : Lapsed l s t) (x : Claim) :
    t.absentMemory x = s.absentMemory x := by
  simp only [State.absentMemory, h.station]

theorem Lapsed.append {l m : List Claim} {s t u : State} (h : Lapsed l s t) (k : Lapsed m t u)
    (apart : ∀ x ∈ l, x.gate ∉ m.map (·.gate)) : Lapsed (l ++ m) s u where
  claims := by
    rw [k.claims, h.claims, List.filter_filter]
    refine List.filter_congr fun y _ => ?_
    simp [Bool.and_comm]
  ent n := by
    rw [k.ent, h.ent]
    by_cases hl : n ∈ l.map (·.slot) <;> by_cases hm : n ∈ m.map (·.slot) <;>
      simp only [List.map_append, List.mem_append, hl, hm, or_true, or_false, if_true, if_false,
        Option.map_map, Function.comp_def]
  gate n := (k.gate n).trans (h.gate n)
  station n := (k.station n).trans (h.station n)
  memory x hx := by
    rcases List.mem_append.1 hx with hx | hx
    · exact k.kept _ (apart x hx) _ (h.memory x hx) rfl
    · rw [k.memory x hx, h.absentMemory]
  kept n hn r hr absent := by
    rw [List.map_append, List.mem_append, not_or] at hn
    exact k.kept n hn.2 r (h.kept n hn.1 r hr absent) absent

/-- One claim lapses (R166). -/
theorem Lapsed.single {s : State} {x : Claim} (h : (s.gate x.gate).isSome) : Lapsed [x] s (s.lapseAbsent x) where
  claims := by
    obtain ⟨kept, -⟩ : _ = (s.lapseAbsent x).adm.claims ∧ _ := (State.modGate_touches
      ((s.detachClaim x.slot).dropClaim x.id) x.gate
      fun g => { g with memory := some (s.absentMemory x) }).1 .claims (by decide)
    rw [← kept]
    refine List.filter_congr fun y _ => ?_
    by_cases hy : y.id = x.id <;> simp [hy]
  ent k := by
    have kept : { s.ent with table := entModify s.ent.table x.slot fun r => { r with claim := none } }
        = (s.lapseAbsent x).ent := (State.modGate_touches ((s.detachClaim x.slot).dropClaim x.id) x.gate
      fun g => { g with memory := some (s.absentMemory x) }).1 .ent (by decide)
    rw [← kept, entGet_entModify]
    simp only [List.map_cons, List.map_nil, List.mem_singleton]
  gate n := by
    by_cases hn : n = x.gate
    · rw [hn, State.lapseAbsent, State.modGate_gate_same, Option.isSome_map]; rfl
    · rw [State.lapseAbsent, State.modGate_gate_other _ _ hn]; rfl
  station n := by
    by_cases hn : n = x.gate
    · rw [hn, State.lapseAbsent, State.modGate_gate_same, Option.bind_map]; rfl
    · rw [State.lapseAbsent, State.modGate_gate_other _ _ hn]; rfl
  memory y hy := by
    obtain rfl : y = x := by simpa using hy
    obtain ⟨g, hg⟩ := Option.isSome_iff_exists.1 h
    have same : ((s.detachClaim y.slot).dropClaim y.id).gate y.gate = some g := hg
    rw [State.lapseAbsent, State.modGate_gate_same, same]
    rfl
  kept n hn m hm _ := by
    have apart : n ≠ x.gate := by simpa using hn
    rw [State.lapseAbsent, State.modGate_gate_other _ _ apart]
    exact hm

/-- Claims of different gates lapse one after the other (R165, R166). -/
theorem Lapsed.foldl (l : List Claim) {s : State} (nodup : (l.map (·.gate)).Nodup)
    (gates : ∀ x ∈ l, (s.gate x.gate).isSome) : Lapsed l s (l.foldl State.lapseAbsent s) := by
  induction l generalizing s with
  | nil => exact Lapsed.nil s
  | cons x l ih =>
    rw [List.map_cons, List.nodup_cons] at nodup
    have first := Lapsed.single (gates x (by simp))
    have rest := ih (s := s.lapseAbsent x) nodup.2 fun y hy => (first.gate _).trans (gates y (by simp [hy]))
    refine first.append rest fun y hy => ?_
    obtain rfl : y = x := by simpa using hy
    exact nodup.1

/-- A memory that names no record is not changed by marking a record absent (R166). -/
theorem Lapsed.forget {l : List Claim} {s t : State} (h : Lapsed l s t) (c : Car) :
    Lapsed l s (t.forgetRecord c) where
  claims := h.claims
  ent := h.ent
  gate n := by rw [State.forgetRecord_gate, Option.isSome_map, h.gate]
  station n := by
    rw [← h.station, State.forgetRecord_gate, Option.bind_map]
    rfl
  memory x hx := by
    have memory := h.memory x hx
    rw [Option.bind_eq_some_iff] at memory
    obtain ⟨g, hg, hm⟩ := memory
    rw [State.forgetRecord_gate, hg, Option.map_some, Option.bind_some, hm]
    rfl
  kept n hn m hm absent := by
    have memory := h.kept n hn m hm absent
    rw [Option.bind_eq_some_iff] at memory
    obtain ⟨g, hg, hm⟩ := memory
    rw [State.forgetRecord_gate, hg, Option.map_some, Option.bind_some, hm]
    simp [absent]

/-! ### The discard of both records -/

/-- The open claims of a car. -/
def State.claimsFor (s : State) (c : Car) : List Claim := s.adm.claims.filter fun x => x.car == c

/-- The claims of a car that has a record, or has no claim, lapse at its discard (R117, R170). -/
theorem State.discardRecord_lapsed {s : State} {c : Car} (nodup : (s.adm.claims.map (·.gate)).Nodup)
    (gates : ∀ x ∈ s.adm.claims, (s.gate x.gate).isSome) (h : s.record c = none → s.claimsFor c = []) :
    Lapsed (s.claimsFor c) s (s.discardRecord c) := by
  cases hr : s.record c with
  | none =>
    simp only [State.discardRecord, hr, h hr]
    exact Lapsed.nil s
  | some r =>
    rw [State.discardRecord_of_record hr]
    have lapsed := Lapsed.foldl (s := s.setRecord c none) (s.claimsFor c)
      (nodup.sublist ((List.filter_sublist).map _)) fun x hx => by
        have := gates x (List.mem_filter.1 hx).1
        cases c <;> exact this
    have removed := lapsed.forget c
    cases c <;> exact
      { claims := removed.claims, ent := removed.ent, gate := removed.gate, station := removed.station,
        memory := removed.memory, kept := removed.kept }

theorem otherCar_of_ne {c k : Car} (h : c ≠ k) : c = otherCar k := by
  revert h
  cases c <;> cases k <;> simp [otherCar]

theorem State.discardRecord_other (s : State) (c : Car) :
    (s.discardRecord c).record (otherCar c) = s.record (otherCar c) := by
  cases h : s.record c with
  | none => simp only [State.discardRecord, h]
  | some r =>
    rw [State.discardRecord_of_record h, (State.forgetRecord_touches _ c).1.record (by decide),
      (touches.foldl _ State.lapseAbsent_touches _ _).1.record (by decide), State.setRecord_other]

/-- A car without a record has no claim (R117, R165). -/
theorem countsInv.claimsFor_nil {s : State} {c : Car} (h : countsInv s c)
    (persons : ∀ x ∈ s.adm.claims, 1 ≤ x.persons) (absent : s.record c = none) : s.claimsFor c = [] := by
  have held : ((s.claimsFor c).map (·.persons)).sum = 0 := by
    simp only [countsInv, absent] at h
    exact h
  refine List.eq_nil_iff_forall_not_mem.2 fun x hx => ?_
  have least := persons x (List.mem_filter.1 hx).1
  have bound : x.persons ≤ ((s.claimsFor c).map (·.persons)).sum := List.le_sum_of_mem (List.mem_map_of_mem hx)
  omega

/-- At the discard of both records every open claim lapses, none with a record (R117, R165, R170). -/
theorem State.discardRecords_lapsed {s : State} (gates : s.adm.gates.length = 16) (counts : ∀ c, countsInv s c)
    (claims : claimsInv s) : ∃ l, (∀ x ∈ s.adm.claims, x ∈ l) ∧ Lapsed l s s.discardRecords := by
  obtain ⟨ids, gateIds, claim, -⟩ := claims
  have persons (x : Claim) (hx : x ∈ s.adm.claims) : 1 ≤ x.persons := by
    obtain ⟨-, -, -, least, -⟩ := claim x hx
    exact least
  have gate (x : Claim) (hx : x ∈ s.adm.claims) : (s.gate x.gate).isSome := by
    obtain ⟨-, low, high, -⟩ := claim x hx
    exact State.gate_isSome gates low high
  have first := State.discardRecord_lapsed (c := .a) gateIds gate ((counts .a).claimsFor_nil persons)
  have sub : (s.discardRecord .a).adm.claims.Sublist s.adm.claims := by
    rw [first.claims]
    exact List.filter_sublist
  have absent (h : (s.discardRecord .a).record .b = none) : (s.discardRecord .a).claimsFor .b = [] := by
    have none := (counts .b).claimsFor_nil persons ((s.discardRecord_other .a).symm.trans h)
    exact List.sublist_nil.1 (none ▸ sub.filter _)
  have second := State.discardRecord_lapsed (s := s.discardRecord .a) (c := .b) (gateIds.sublist (sub.map _))
    (fun x hx => (first.gate _).trans (gate x (sub.subset hx))) absent
  refine ⟨_, fun x hx => ?_, first.append second fun x hx hg => ?_⟩
  · rw [List.mem_append]
    cases hc : x.car with
    | a => exact .inl (List.mem_filter.2 ⟨hx, by simp [hc]⟩)
    | b =>
      refine .inr (List.mem_filter.2 ⟨?_, by simp [hc]⟩)
      rw [first.claims]
      refine List.mem_filter.2 ⟨hx, decide_eq_true fun hid => ?_⟩
      obtain ⟨y, hy, same⟩ := List.mem_map.1 hid
      obtain ⟨hy, car⟩ := List.mem_filter.1 hy
      obtain rfl : y = x := List.inj_on_of_nodup_map ids hy hx same
      simp [hc] at car
  · obtain ⟨y, hy, same⟩ := List.mem_map.1 hg
    obtain ⟨hy, carB⟩ := List.mem_filter.1 hy
    obtain ⟨hx, carA⟩ := List.mem_filter.1 hx
    obtain rfl : y = x := List.inj_on_of_nodup_map gateIds (sub.subset hy) hx same
    simp only [beq_iff_eq] at carA carB
    cases carA.symm.trans carB

/-- With every claim lapsed the list is empty. -/
theorem Lapsed.claims_nil {l : List Claim} {s t : State} (h : Lapsed l s t) (all : ∀ x ∈ s.adm.claims, x ∈ l) :
    t.adm.claims = [] := by
  rw [h.claims, List.filter_eq_nil_iff]
  exact fun x hx => by simpa using ⟨x, all x hx, rfl⟩

theorem mem_of_entGet {t : EntTable} {k : Nat} {r : EntRecord} (h : entGet t k = some r) : (k, r) ∈ t := by
  induction t with
  | nil => cases h
  | cons p t ih =>
    simp only [entGet] at h
    split at h
    case isTrue hk => cases h; simp [← hk]
    case isFalse => exact List.mem_cons_of_mem _ (ih h)

/-- With every claim lapsed no record of the table carries one (R148, R165). -/
theorem Lapsed.ent_clear {l : List Claim} {s t : State} (h : Lapsed l s t) (all : ∀ x ∈ s.adm.claims, x ∈ l)
    (claims : claimsInv s) (k : Nat) :
    entGet t.ent.table k = (entGet s.ent.table k).map fun r => { r with claim := none } := by
  rw [h.ent]
  split
  · rfl
  case isFalse away =>
    obtain ⟨-, -, -, carried⟩ := claims
    cases hr : entGet s.ent.table k with
    | none => rfl
    | some r =>
      have free : r.claim = none := by
        refine Option.eq_none_iff_forall_not_mem.2 fun key hkey => ?_
        obtain ⟨x, hx, slot, -⟩ := carried _ (mem_of_entGet hr) key hkey
        exact away (List.mem_map.2 ⟨x, all x hx, slot⟩)
      rw [Option.map_some, ← free]

end Sys2Proof.Machine
end

-- ==== UNPARK, PARK and STOP RUN ====
section
/-! UNPARK and PARK make their checks in order and then enter their line state; STOP RUN ends a run (R66, R67, R76). -/

namespace Sys2Proof.Machine

/-! ### UNPARK -/

/-- What an UNPARK that passes its checks enters (R66). -/
def State.unparked (s : State) : State :=
  match s.current with
  | some k => s.enterDwell k
  | none => s.enterHalted .offBerth

/-- UNPARK makes its checks in the order of R66. -/
theorem unpark_eq (s : State) :
    unpark s = s.answerBy 0x23 (unparkChecks s) (s.unparked.deriveBoarding.reply 0x23 .ok []) := by
  simp only [unpark, unparkChecks, State.answerBy_cons, State.answerBy_nil]
  refine if_congr (by simp) rfl ?_
  refine if_congr Iff.rfl rfl ?_
  refine if_congr Iff.rfl rfl ?_
  refine if_congr Iff.rfl rfl ?_
  refine if_congr Iff.rfl rfl ?_
  refine if_congr Iff.rfl rfl ?_
  rfl

/-- An entry to HALTED leaves the load figures (R76, R118). -/
theorem State.enterHalted_loads (s : State) (h : HaltCause) : samePart .loads s (s.enterHalted h) :=
  (State.discardRecords_touchesLess (s.halting h)).1 .loads (by decide)

/-- Settles O25: UNPARK is its checks in order and then the entry by car A's station. -/
theorem unparkEntersDwellOrHalted : Obligations.UnparkEntersDwellOrHalted := by
  intro s
  refine ⟨fun rc d refused => ?_, fun passed => ?_⟩
  · exact ⟨_, congrArg Host.Outcome.next ((unpark_eq s).trans (State.answerBy_of_refused refused)), rfl,
      (s.reply_touches _ _ _).1⟩
  · refine ⟨_, congrArg Host.Outcome.next ((unpark_eq s).trans (State.answerBy_of_passed passed)), rfl,
      State.deriveBoarding_boardingInv s.unparked, fun k berthed => ?_, fun away => ?_⟩
    · rw [State.unparked, berthed]
      exact (s.enterDwell_derived k).reply _ _ _
    · obtain ⟨a, b⟩ := (s.enterHalted_loads .offBerth).trans
        ((State.deriveBoarding_touches (s.enterHalted .offBerth)).1 .loads (by decide))
      rw [State.unparked, away]
      exact ⟨(s.enterHalted_derived .offBerth).of_touches (State.reply_touches _ _ _ _) (by decide), a.symm, b.symm⟩

/-! ### PARK -/

/-- PARK makes its checks in the order of R67. -/
theorem park_eq (s : State) :
    park s = s.answerBy 0x24 (parkChecks s) (s.enterParked.deriveBoarding.reply 0x24 .ok []) := by
  simp only [park, parkChecks, State.answerBy_cons, State.answerBy_nil]
  refine if_congr (by simp) rfl ?_
  refine if_congr Iff.rfl rfl ?_
  refine if_congr Iff.rfl rfl ?_
  rfl

/-- The line as it stands in PARKED, its boarding states derived (R67, R102). -/
theorem State.enterParked_stands (s : State) :
    let t := s.enterParked.deriveBoarding
    t.haul.line = .parked ∧ t.haul.haltCause = .noCause ∧ t.haul.run = none ∧ t.haul.vPerm = 0 ∧ t.haul.vSup = 0
      ∧ t.haul.vDem = 0 ∧ t.haul.torqueDue = none ∧ t.haul.driveEnable = false ∧ t.osb.safetyReleased = false
      ∧ t.osb.serviceReleased = false ∧ t.record .a = none ∧ t.record .b = none
      ∧ samePart .loads s t ∧ hasAttention t .lineState = true := by
  intro t
  have discarded := State.discardRecords_touchesLess (s.setLine .parked)
  have later := (State.dwellSpeeds_touches (s.setLine .parked).discardRecords).trans (State.deriveBoarding_touches _)
  have absent (c : Car) : t.record c = none :=
    (later.1.record (by decide) c).trans ((s.setLine .parked).discardRecords_absent c)
  have line : _ = (s.setLine .parked).discardRecords.haul.line := discarded.1 .line (by decide)
  obtain ⟨-, -, dem, -⟩ : _ ∧ _ ∧ _ ∧ _ := discarded.1 .speeds (by decide)
  obtain ⟨drive, safety, service⟩ : _ ∧ _ ∧ _ := discarded.1 .outputs (by decide)
  have loads := ((s.setLine_touches .parked).trans (discarded.trans later)).1 .loads (by decide)
  have raised := (discarded.trans later).2.hasAttention (s.setLine_hasAttention .parked)
  have haul : t.haul = (s.setLine .parked).discardRecords.dwellSpeeds.haul := State.deriveBoarding_haul _
  have osb : t.osb = (s.setLine .parked).discardRecords.dwellSpeeds.osb := State.deriveBoarding_osb _
  rw [haul, osb]
  exact ⟨line.symm, rfl, rfl, rfl, rfl, dem.symm, rfl, drive.symm, safety.symm, service.symm, absent .a, absent .b,
    loads, raised⟩

/-- PARK lapses every claim with its record absent (R67, R117, R166, R170). -/
theorem State.enterParked_lapsed {s : State} (h : admissionInv s) :
    let t := s.enterParked.deriveBoarding
    t.adm.claims = [] ∧ (∀ k, entGet t.ent.table k = (entGet s.ent.table k).map fun r => { r with claim := none })
      ∧ ∀ c ∈ s.adm.claims, (t.gate c.gate).bind (·.memory) = some (s.absentMemory c) := by
  intro t
  obtain ⟨shape, -, -, -, -, countsA, countsB, claims⟩ := h
  obtain ⟨-, -, -, -, -, -, -, gates, -⟩ := shape
  obtain ⟨l, all, lapsed⟩ := State.discardRecords_lapsed (s := s.setLine .parked) gates
    (fun c => by cases c; exacts [countsA, countsB]) claims
  have later := ((State.dwellSpeeds_touches (s.setLine .parked).discardRecords).trans (State.deriveBoarding_touches _)).1
  obtain ⟨claims', -⟩ : _ ∧ _ := later .claims (by decide)
  have ent : _ = t.ent := later .ent (by decide)
  have gates' : _ = t.adm.gates := later .gates (by decide)
  refine ⟨claims'.symm.trans (lapsed.claims_nil all), fun k => ?_, fun c hc => ?_⟩
  · rw [← ent]
    exact lapsed.ent_clear all claims k
  · have gate : t.gate c.gate = (s.setLine .parked).discardRecords.gate c.gate := by
      simp only [State.gate, gates']
    rw [gate]
    exact lapsed.memory c (all c hc)

/-! ### STOP RUN -/

theorem stopRun_of_running {s : State} (h : s.running = true) :
    stopRun s = (s.enterHalted .stopCommand).deriveBoarding.reply 0x31 .ok [] := if_pos h

/-- A line that does not run is not stopped (R76). -/
theorem stopRun_of_still {s : State} (h : s.running = false) :
    stopRun s = if s.haul.line = .halted then s.reply 0x31 .ok [] else s.reply 0x31 .wrongState [] :=
  if_neg (by simp [h])

/-- Settles O26: PARK is its checks in order and then the entry to PARKED, at which every claim lapses; STOP RUN by the
line state. -/
theorem parkAndStopRunEndTheService : Obligations.ParkAndStopRunEndTheService := by
  intro s
  refine ⟨fun rc d refused => ?_, fun passed inv => ?_, fun running => ?_, fun halted => ?_, fun still away => ?_⟩
  · exact ⟨_, congrArg Host.Outcome.next ((park_eq s).trans (State.answerBy_of_refused refused)), rfl,
      (s.reply_touches _ _ _).1⟩
  · obtain ⟨line, cause, run, perm, sup, dem, due, drive, safety, service, a, b, ⟨loadA, loadB⟩, raised⟩ :=
      s.enterParked_stands
    obtain ⟨claims, ent, memory⟩ := State.enterParked_lapsed inv
    exact ⟨_, congrArg Host.Outcome.next ((park_eq s).trans (State.answerBy_of_passed passed)), rfl,
      State.deriveBoarding_boardingInv s.enterParked, line, cause, run, perm, sup, dem, due, drive, safety, service, a,
      b, claims, loadA.symm, loadB.symm, ent, memory, raised⟩
  · exact ⟨_, congrArg Host.Outcome.next (stopRun_of_running running), rfl,
      State.deriveBoarding_boardingInv (s.enterHalted .stopCommand),
      (s.enterHalted_derived .stopCommand).of_touches (State.reply_touches _ _ _ _) (by decide)⟩
  · have still : s.running = false := by simp [State.running, LineState.running, halted]
    exact ⟨_, congrArg Host.Outcome.next ((stopRun_of_still still).trans (if_pos halted)), rfl,
      (s.reply_touches _ _ _).1⟩
  · exact ⟨_, congrArg Host.Outcome.next ((stopRun_of_still still).trans (if_neg away)), rfl,
      (s.reply_touches _ _ _).1⟩

end Sys2Proof.Machine
end

-- ==== SENSE and SOFT RESET ====
section
/-! SENSE empties the attention set, and SOFT RESET is judged by the line state and then resets the service (R90, R111,
R135, R148, R170, R174, R183 to R186). -/

namespace Sys2Proof.Machine

/-! ### A discard with no claim open -/

theorem State.setRecord_none_of_absent {s : State} {c : Car} (h : s.record c = none) : s.setRecord c none = s := by
  rw [← h]
  cases c <;> rfl

/-- Where no gate has a memory there is none to mark (R166). -/
theorem State.forgetRecord_of_clear {s : State} (h : ∀ g ∈ s.adm.gates, g.memory = none) (c : Car) :
    s.forgetRecord c = s := by
  have same : (s.adm.gates.map fun g =>
      { g with memory := g.memory.map fun m => if m.record = some c then { m with record := none } else m })
      = s.adm.gates := by
    refine (List.map_congr_left fun g hg => ?_).trans (List.map_id' s.adm.gates)
    simp only [h g hg, Option.map_none]
    rw [← h g hg]
  rw [State.forgetRecord, same]

/-- With no claim open and no memory held a discard removes the record alone (R117, R170). -/
theorem State.discardRecord_of_clear {s : State} (claims : s.adm.claims = [])
    (h : ∀ g ∈ s.adm.gates, g.memory = none) (c : Car) : s.discardRecord c = s.setRecord c none := by
  cases hr : s.record c with
  | none => rw [State.setRecord_none_of_absent hr]; simp only [State.discardRecord, hr]
  | some r =>
    have removed : (s.setRecord c none).forgetRecord c = s.setRecord c none :=
      State.forgetRecord_of_clear (by cases c <;> exact h) c
    rw [State.discardRecord_of_record hr, claims]
    exact removed

theorem State.discardRecords_of_clear {s : State} (claims : s.adm.claims = [])
    (h : ∀ g ∈ s.adm.gates, g.memory = none) : s.discardRecords = (s.setRecord .a none).setRecord .b none := by
  rw [State.discardRecords, State.discardRecord_of_clear claims h .a]
  exact State.discardRecord_of_clear (s := s.setRecord .a none) claims h .b

/-! ### An accepted soft reset -/

/-- The service after a soft reset, but for the boarding states and the attention set (R90, R111, R135, R148, R170). -/
def State.serviceReset (s : State) : State :=
  (((((s.clearClaims.setLine .parked).setRecord .a none).setRecord .b none).dwellSpeeds).resetHaul).resetOsb.resetStp

/-- The claims are cleared ahead of the entry to PARKED, so the discards there lapse none (R170). -/
theorem State.softReset_eq (s : State) :
    s.softReset = s.serviceReset.deriveBoarding.setAttention (attentionMask .softReset) := by
  have clear : ∀ g ∈ (s.clearClaims.setLine .parked).adm.gates, g.memory = none := by
    intro g hg
    obtain ⟨_, -, rfl⟩ := List.mem_map.1 hg
    rfl
  have parked : s.clearClaims.enterParked
      = (((s.clearClaims.setLine .parked).setRecord .a none).setRecord .b none).dwellSpeeds := by
    rw [State.enterParked, State.discardRecords_of_clear rfl clear]
  rw [State.softReset, parked]
  rfl

/-- A gate after a soft reset: no memory, and no ADMIT (R170, R174). -/
theorem State.clearClaims_gate (s : State) (k : Nat) :
    s.clearClaims.gate k = (s.gate k).map fun g =>
      { g with
        memory := none
        answer := match g.answer with
          | .admission _ _ _ => .refuse .outOfService
          | a => a } := by
  simp only [State.gate, State.clearClaims, List.getElem?_map]
  split <;> rfl

/-- The state that an accepted SOFT RESET leaves, with its result. -/
def State.softResetDone (s : State) : State := s.softReset.reply 0x83 .ok []

theorem State.softResetDone_boardingInv (s : State) : boardingInv s.softResetDone := by
  rw [State.softResetDone, State.softReset_eq]
  exact State.deriveBoarding_boardingInv s.serviceReset

theorem State.softResetDone_haul (s : State) : s.softResetDone.haul = s.serviceReset.haul := by
  rw [State.softResetDone, State.softReset_eq]
  exact s.serviceReset.deriveBoarding_haul

theorem State.softResetDone_osb (s : State) : s.softResetDone.osb = s.serviceReset.osb := by
  rw [State.softResetDone, State.softReset_eq]
  exact s.serviceReset.deriveBoarding_osb

theorem State.softResetDone_car (s : State) (c : Car) : s.softResetDone.car c = s.serviceReset.car c := by
  have stp : s.softResetDone.stp = s.serviceReset.stp := by
    rw [State.softResetDone, State.softReset_eq]
    exact s.serviceReset.deriveBoarding_stp
  cases c with
  | a => exact congrArg StpState.carA stp
  | b => exact congrArg StpState.carB stp

/-- The claims, the gates and the table after a soft reset are those with the claims cleared (R148, R170, R174). -/
theorem State.softResetDone_clears (s : State) :
    s.softResetDone.adm.claims = [] ∧ s.softResetDone.adm.lastClaimId = s.adm.lastClaimId
      ∧ s.softResetDone.ent = s.clearClaims.ent ∧ ∀ k, s.softResetDone.gate k = s.clearClaims.gate k := by
  have derived := s.serviceReset.deriveBoarding_touches.1
  obtain ⟨claims, last⟩ : _ ∧ _ := derived .claims (by decide)
  have ent : _ = s.serviceReset.deriveBoarding.ent := derived .ent (by decide)
  have gates : _ = s.serviceReset.deriveBoarding.adm.gates := derived .gates (by decide)
  rw [State.softResetDone, State.softReset_eq]
  refine ⟨claims.symm, last.symm, ent.symm, fun k => ?_⟩
  show s.serviceReset.deriveBoarding.gate k = s.clearClaims.gate k
  simp only [State.gate, ← gates]
  rfl

/-- The thresholds and the limit that a publication of v_sup 0 leaves (R91, R110). -/
theorem State.dwellSpeeds_thresholds (s : State) :
    s.dwellSpeeds.osb.t1 = min 13000 (s.par 0x71) ∧ s.dwellSpeeds.osb.t2 = min 13000 (s.par 0x73)
      ∧ s.dwellSpeeds.osb.vAbs = s.par 0x74 := by
  have par (n : Nat) : ((((s.setRun none).setHalt .noCause).stopTorque).setPerm 0).par n = s.par n := rfl
  exact ⟨(threshold_zero _ _).trans (congrArg _ (par 0x71)), (threshold_zero _ _).trans (congrArg _ (par 0x73)),
    par 0x74⟩

theorem State.serviceReset_thresholds (s : State) :
    s.serviceReset.osb.t1 = min 13000 (s.par 0x71) ∧ s.serviceReset.osb.t2 = min 13000 (s.par 0x73)
      ∧ s.serviceReset.osb.vAbs = s.par 0x74 := by
  obtain ⟨t1, t2, vAbs⟩ :=
    (((s.clearClaims.setLine .parked).setRecord .a none).setRecord .b none).dwellSpeeds_thresholds
  have par (n : Nat) : (((s.clearClaims.setLine .parked).setRecord .a none).setRecord .b none).par n = s.par n := rfl
  exact ⟨t1.trans (congrArg _ (par 0x71)), t2.trans (congrArg _ (par 0x73)), vAbs.trans (par 0x74)⟩

/-! ### The judgement by the line state -/

theorem softReset_of_running {s : State} (h : s.running = true ∨ s.haul.line = .tripped) :
    softReset s = s.reply 0x83 .wrongState [] := by
  cases hl : s.haul.line <;> simp [softReset, State.running, LineState.running, hl] at h ⊢

theorem softReset_of_service {s : State} (h : s.haul.line = .dwell ∨ s.haul.line = .halted) :
    softReset s = if s.atRest then s.softResetDone else s.refuse 0x83 .notAtRest := by
  rcases h with h | h <;> simp only [softReset, h, State.softResetDone]

theorem softReset_of_accepted {s : State}
    (h : s.haul.line = .parked ∨ ((s.haul.line = .dwell ∨ s.haul.line = .halted) ∧ s.atRest = true)) :
    softReset s = s.softResetDone := by
  rcases h with h | ⟨h, rest⟩
  · simp only [softReset, h, State.softResetDone]
  · rw [softReset_of_service h, if_pos rest]

/-- Settles O43: SENSE by its definition, and SOFT RESET by the line state and, where it is accepted, block by block. -/
theorem senseAndSoftResetReplaceTheAttentionSet : Obligations.SenseAndSoftResetReplaceTheAttentionSet := by
  intro s
  refine ⟨?sense, fun running => ?wrong, fun service moving => ?refused, fun accepted => ?accepted⟩
  case sense =>
    exact ⟨_, rfl, rfl, execSense_kept (.fields {}) s _ rfl, rfl, rfl⟩
  case wrong =>
    exact ⟨_, congrArg Host.Outcome.next (softReset_of_running running), rfl, (s.reply_touches _ _ _).1⟩
  case refused =>
    exact ⟨_, congrArg Host.Outcome.next ((softReset_of_service service).trans (if_neg (by simp [moving]))), rfl,
      (s.reply_touches _ _ _).1⟩
  case accepted =>
    have row : exec (.softReset (.fields {})) s = .next s.softResetDone :=
      congrArg Host.Outcome.next (softReset_of_accepted accepted)
    obtain ⟨t1, t2, vAbs⟩ := s.serviceReset_thresholds
    obtain ⟨claims, last, ent, gate⟩ := s.softResetDone_clears
    have attention : s.softResetDone.lnk.attention = attentionMask .softReset := rfl
    refine ⟨_, row, rfl, execSoftReset_kept _ s _ row, s.softResetDone_boardingInv, ?_⟩
    rw [State.softResetDone_haul, State.softResetDone_osb, claims, last, ent, attention]
    refine ⟨rfl, rfl, rfl, rfl, rfl, rfl, rfl, rfl, rfl, rfl, rfl, rfl, rfl, rfl, rfl, rfl, rfl, rfl, rfl, rfl,
      t1, t2, vAbs, fun c => ?_, rfl, rfl, fun k => ?_, fun k => ?_, rfl⟩
    · rw [State.record, State.softResetDone_car]
      cases c <;> exact ⟨rfl, rfl, rfl, rfl⟩
    · exact entGet_entMap s.ent.table (fun r => { r with claim := none }) k
    · exact (gate k).trans (s.clearClaims_gate k)

end Sys2Proof.Machine
end

-- ==== The haul sample ====
section
/-! What a haul sample leaves: the speeds and the thresholds it publishes, the comparison it makes, and the trip at an
overrun (R79 to R81, R83, R85, R86, R91 to R94, R96, R110). -/

namespace Sys2Proof.Machine

/-! ### The haul after trips and comparisons -/

/-- The haul after a trip cause: as it was, or TRIPPED with v_perm and v_dem 0 (R100 to R102). -/
theorem State.takeCause_stops (s : State) (c : TripCause) :
    (s.takeCause c).haul = s.haul
      ∨ ((s.takeCause c).haul.line = .tripped ∧ (s.takeCause c).haul.vDem = 0 ∧ (s.takeCause c).haul.vPerm = 0) := by
  by_cases hp : s.haul.line = .parked
  · refine .inl ?_
    simp only [State.takeCause, hp]
    split <;> rfl
  · by_cases ht : s.haul.line = .tripped
    · refine .inl ?_
      rw [State.takeCause_of_tripped ht]
      split
      · rfl
      · rw [State.dropHold_eq]; rfl
    · rw [State.takeCause_of_service hp ht, State.enterTripped_haul]
      exact .inr ⟨rfl, rfl, rfl⟩

/-- What a comparison may make of the haul: nothing, a trip, or a change of the sub-phase of a run, each change with v_dem
0 (R92 to R94, R102). -/
def comparedHaul (h k : HaulState) : Prop :=
  k = h ∨ (k.line = .tripped ∧ k.vDem = 0 ∧ k.vPerm = 0)
    ∨ (h.line ≠ .tripped ∧ k.line ≠ .tripped ∧ k.line ≠ h.line ∧ k.vDem = 0 ∧ k.vPerm = h.vPerm)

theorem comparedHaul.takeCause {h : HaulState} {s : State} (e : comparedHaul h s.haul) (c : TripCause) :
    comparedHaul h (s.takeCause c).haul := by
  rcases s.takeCause_stops c with same | stops
  · rwa [same]
  · exact .inr (.inl stops)

theorem comparedHaul.takeAll {h : HaulState} {s : State} (e : comparedHaul h s.haul) (cs : List TripCause) :
    comparedHaul h (s.takeAll cs).haul := by
  unfold State.takeAll
  induction cs generalizing s with
  | nil => exact e
  | cons c cs ih => exact ih (e.takeCause c)

theorem State.compare_haul (s : State) : comparedHaul s.haul s.compare.haul := by
  rcases s.compare_cases with ⟨-, e⟩ | ⟨-, h, e⟩ | ⟨-, -, h, e⟩ | ⟨-, -, -, e⟩ <;> rw [e]
  · exact comparedHaul.takeAll (.inl rfl) _
  · obtain ⟨moving, -⟩ := s.mustIntervene_iff.1 h
    exact .inr (.inr ⟨by simp [moving], by simp [State.intervene_line], by simp [State.intervene_line, moving], rfl,
      rfl⟩)
  · obtain ⟨intervening, -⟩ := s.mayRelease_iff.1 h
    exact .inr (.inr ⟨by simp [intervening], by simp [State.releaseIntervention_line],
      by simp [State.releaseIntervention_line, intervening], rfl, rfl⟩)
  · exact .inl rfl

theorem State.compareWith_haul (s : State) (c : TripCause) : comparedHaul s.haul (s.compareWith c).haul := by
  unfold State.compareWith
  split
  · split
    · exact comparedHaul.takeAll (s := s.bumpChoice) (.inl rfl) _
    · exact s.bumpChoice.compare_haul.takeCause c
  · exact comparedHaul.takeCause (.inl rfl) c

/-- v_perm is what was published, or 0 where the comparison trips (R80, R102). -/
theorem comparedHaul.vPerm {h k : HaulState} (e : comparedHaul h k) (hl : h.line ≠ .tripped) :
    k.vPerm = if k.line = .tripped then 0 else h.vPerm := by
  rcases e with rfl | ⟨line, -, perm⟩ | ⟨-, line, -, -, perm⟩
  · rw [if_neg hl]
  · rw [if_pos line, perm]
  · rw [if_neg line, perm]

theorem comparedHaul.vPerm_zero {h k : HaulState} (e : comparedHaul h k) (hp : h.vPerm = 0) : k.vPerm = 0 := by
  rcases e with rfl | ⟨-, -, perm⟩ | ⟨-, -, -, -, perm⟩
  exacts [hp, perm, perm.trans hp]

theorem comparedHaul.vDem_zero {h k : HaulState} (e : comparedHaul h k) (hd : h.vDem = 0 ∨ k.line ≠ h.line) :
    k.vDem = 0 := by
  rcases e with rfl | ⟨-, dem, -⟩ | ⟨-, -, -, dem, -⟩
  exacts [hd.resolve_right (· rfl), dem, dem]

/-- A comparison that leaves a run in its sub-phase leaves the haul (R93, R94). -/
theorem comparedHaul.eq {h k : HaulState} (e : comparedHaul h k) (hl : h.line ≠ .tripped) (hk : k.line = h.line) :
    k = h := by
  rcases e with rfl | ⟨line, -, -⟩ | ⟨-, -, line, -, -⟩
  · rfl
  · exact absurd (hk.symm.trans line) hl
  · exact absurd hk line

/-- A record that is absent stays absent where a trip cause is taken (R130). -/
theorem State.takeCause_absent {s : State} {k : Car} (h : s.record k = none) (c : TripCause) :
    (s.takeCause c).record k = none := by
  by_cases hp : s.haul.line = .parked
  · simp only [State.takeCause, hp]
    split <;> exact h
  · by_cases ht : s.haul.line = .tripped
    · rw [State.takeCause_of_tripped ht]
      split
      · exact h
      · rw [State.dropHold_eq]; exact h
    · rw [State.takeCause_of_service hp ht, State.enterTripped_record, h]; rfl

theorem State.takeAll_absent (cs : List TripCause) {s : State} {k : Car} (h : s.record k = none) :
    (s.takeAll cs).record k = none := by
  unfold State.takeAll
  induction cs generalizing s with
  | nil => exact h
  | cons c cs ih => exact ih (State.takeCause_absent h c)

theorem State.compare_absent {s : State} {k : Car} (h : s.record k = none) : s.compare.record k = none := by
  rcases s.compare_cases with ⟨-, e⟩ | ⟨-, -, e⟩ | ⟨-, -, -, e⟩ | ⟨-, -, -, e⟩ <;> rw [e]
  · exact State.takeAll_absent _ h
  · exact (s.setLine_record .intervening k).trans h
  · exact (s.setLine_record .moving k).trans h
  · exact h

theorem State.compareWith_absent {s : State} {k : Car} (h : s.record k = none) (c : TripCause) :
    (s.compareWith c).record k = none := by
  unfold State.compareWith
  split
  · split
    · exact State.takeAll_absent _ (s := s.bumpChoice) h
    · exact State.takeCause_absent (State.compare_absent (s := s.bumpChoice) h) c
  · exact State.takeCause_absent h c

/-! ### A comparison together with a cause of another block -/

/-- Together with a cause of another block a comparison takes all its causes and that one, in one order or the other
(R96). -/
theorem State.compareWith_takes {s : State} (hl : comparesIn s.haul.line) (c : TripCause) :
    ∃ (u : State) (l : List TripCause), s.compareWith c = u.takeAll l ∧ l.Perm (c :: s.speedCauses) ∧ u.haul.line.inService
      ∧ u.spd.vMeas = s.spd.vMeas ∧ u.osb.hold = s.osb.hold := by
  unfold State.compareWith
  split
  case isFalse acts =>
    have none : s.speedCauses = [] := by
      simp only [State.compareActs, Bool.or_eq_true, not_or] at acts
      obtain ⟨⟨causes, -⟩, -⟩ := acts
      simpa using causes
    exact ⟨s, [c], rfl, by rw [none], hl.inService, rfl, rfl⟩
  case isTrue =>
    split
    · exact ⟨s.bumpChoice, _, rfl, .refl _, hl.inService, rfl, rfl⟩
    · cases h : s.speedCauses with
      | nil =>
        obtain ⟨line, meas, hold⟩ := State.compare_of_no_cause (s := s.bumpChoice) hl h
        exact ⟨s.bumpChoice.compare, [c], rfl, .refl _, line, meas, hold⟩
      | cons d ds =>
        have causes : s.bumpChoice.speedCauses = d :: ds := h
        have taken : s.bumpChoice.compare.takeCause c = s.bumpChoice.takeAll (d :: ds ++ [c]) := by
          rw [State.compare, causes]
          simp [State.takeAll]
        exact ⟨s.bumpChoice, _, taken, List.perm_append_singleton c (d :: ds), hl.inService, rfl, rfl⟩

/-- Of the causes that a comparison finds, ABSOLUTE OVERSPEED alone is a track-brake cause (R92, R104). -/
theorem State.speedCauses_brakes {s : State} (hl : comparesIn s.haul.line) :
    (s.speedCauses.all fun c => !c.trackBrake) = decide (s.spd.vMeas ≤ s.osb.vAbs) := by
  have member := State.mem_speedCauses hl
  rw [Bool.eq_iff_iff, List.all_eq_true, decide_eq_true_iff]
  refine ⟨fun h => Nat.not_lt.1 fun above => ?_, fun h c hc => ?_⟩
  · exact absurd (h .absOverspeed ((member _).2 (.inl ⟨rfl, above⟩))) (by simp [TripCause.trackBrake])
  · rcases (member c).1 hc with ⟨-, above⟩ | ⟨rfl, -⟩
    · exact absurd h (Nat.not_le.2 above)
    · rfl

/-- A cause of another block and the causes of a comparison are all in the latch, in either order (R96, R100, R104). -/
theorem State.compareWith_tookTogether {s : State} (hl : comparesIn s.haul.line) {c : TripCause}
    (other : c ≠ .absOverspeed ∧ c ≠ .overspeed) :
    tookTogether c s.spd.vMeas s.osb s (s.compareWith c) := by
  have member := State.mem_speedCauses hl
  have new : c ∉ s.speedCauses := by simp [member, other]
  obtain ⟨u, l, taken, perm, line, meas, hold⟩ := State.compareWith_takes hl c
  have nodup : l.Nodup := perm.nodup_iff.2 (List.nodup_cons.2 ⟨new, s.speedCauses_nodup⟩)
  obtain ⟨d, ds, rfl⟩ : ∃ d ds, l = d :: ds := List.exists_cons_of_ne_nil fun e => by simpa [e] using perm.length_eq
  obtain ⟨tripped, -, -, -, vTrip, -, braked⟩ := State.takeAll_of_service line nodup
  rw [taken]
  refine ⟨tripped, vTrip.trans meas, fun e => ?_, fun passAbs passOver => ?_, ?_⟩
  · rw [State.takeAll_latch line nodup e, perm.mem_iff, List.mem_cons, member]
  · rw [State.speedCauses_of_passes passAbs passOver, List.perm_singleton] at perm
    obtain ⟨rfl, rfl⟩ := List.cons.inj perm
    show (u.takeCause d).osb.first = some d ∧ (u.takeCause d).osb.further = 0
    rw [State.takeCause_of_service line.1 line.2]
    simp
  · rw [braked, hold, perm.all_eq, List.all_cons, State.speedCauses_brakes hl, Bool.and_assoc]

/-! ### What the statements of a comparison read -/

/-- What a comparison leaves is read from the three limits, and of the state before it from the hold, the count of
interventions and the parameters. -/
theorem comparisonLeaves.of_limits {l : LineState} {v p : Nat} {o o' : OsbState} {s s' t : State}
    (h : comparisonLeaves l v p o s t) (ho : o'.vAbs = o.vAbs ∧ o'.t1 = o.t1 ∧ o'.t2 = o.t2)
    (hold : s'.osb.hold = s.osb.hold) (count : s'.osb.interventions = s.osb.interventions)
    (params : s'.params = s.params) : comparisonLeaves l v p o' s' t := by
  obtain ⟨vAbs, t1, t2⟩ := ho
  simpa only [comparisonLeaves, State.par, vAbs, t1, t2, hold, count, params] using h

theorem tookTogether.of_limits {c : TripCause} {v : Nat} {o o' : OsbState} {s s' t : State}
    (h : tookTogether c v o s t) (ho : o'.vAbs = o.vAbs ∧ o'.t2 = o.t2) (hold : s'.osb.hold = s.osb.hold) :
    tookTogether c v o' s' t := by
  obtain ⟨vAbs, t2⟩ := ho
  simpa only [tookTogether, vAbs, t2, hold] using h

/-! ### The sample -/

/-- The speeds and thresholds that a sample publishes ahead of its comparison (R80, R85, R86, R91). -/
def State.publishHaul (s : State) : State :=
  let d := s.nextDem s.permitted
  let u := (s.publishSup (s.nextSup s.permitted)).setPerm s.permitted
  { u with haul := { u.haul with vDem := d, rampFrom := d } }

/-- The comparison of a sample, with OVERRUN where it is present (R83, R92, R96). -/
def State.compareHaul (s : State) : State :=
  if s.overrunNow then s.publishHaul.compareWith .overrun else s.publishHaul.compare

theorem State.haulStep_eq (s : State) :
    s.haulStep = (if s.arrivedUnreferenced then s.enterHalted .notReferenced else s).compareHaul := rfl

/-- The timebase and the haul timer at a sample (R80; logs 3, 28). -/
def State.haulTicked (s : State) : State :=
  { s with
    now := max s.now s.haul.haulDue
    haul := { s.haul with haulDue := s.haul.haulDue + ms (s.par 0x64) } }

theorem execHaulSample_eq (s : State) : execHaulSample s = .next s.haulTicked.haulStep.deriveBoarding := rfl

theorem State.compareHaul_touches (s : State) : touches compareParts s.publishHaul s.compareHaul :=
  touches.ite (State.compareWith_touches _ _) (State.compare_touches _)

theorem State.compareHaul_haul (s : State) : comparedHaul s.publishHaul.haul s.compareHaul.haul := by
  unfold State.compareHaul
  split
  · exact State.compareWith_haul _ _
  · exact State.compare_haul _

theorem State.compareHaul_absent {s : State} {c : Car} (h : s.record c = none) : s.compareHaul.record c = none := by
  have published : s.publishHaul.record c = none := by cases c <;> exact h
  unfold State.compareHaul
  split
  · exact State.compareWith_absent published .overrun
  · exact State.compare_absent published

/-- v_sup is what the sample published (R85). -/
theorem State.compareHaul_vSup (s : State) :
    s.compareHaul.haul.vSup = max s.permitted (s.haul.vSup - s.fallRate * s.par 0x64 / 1000) := by
  unfold State.compareHaul
  split
  · exact State.compareWith_vSup _ _
  · exact State.compare_vSup _

/-- The thresholds follow v_sup, and v_abs takes the parameter (R91, R110). -/
theorem State.compareHaul_limits (s : State) :
    s.compareHaul.osb.t1 = threshold s.compareHaul.haul.vSup (s.par 0x70) (s.par 0x71)
      ∧ s.compareHaul.osb.t2 = threshold s.compareHaul.haul.vSup (s.par 0x72) (s.par 0x73)
      ∧ s.compareHaul.osb.vAbs = s.par 0x74 := by
  obtain ⟨t1, t2, vAbs⟩ : _ ∧ _ ∧ _ := s.compareHaul_touches.1 .thresholds (by decide)
  rw [s.compareHaul_vSup]
  exact ⟨t1.symm, t2.symm, vAbs.symm⟩

/-- The comparison of a sample without an overrun, its limits those that the sample published (R92 to R94). -/
theorem State.compareHaul_leaves {s : State} (h : s.overrunNow = false) :
    comparisonLeaves s.haul.line s.spd.vMeas s.permitted s.compareHaul.osb s s.compareHaul := by
  have compares : s.compareHaul = s.publishHaul.compare := if_neg (by simp [h])
  obtain ⟨t1, t2, vAbs⟩ : _ ∧ _ ∧ _ := s.compareHaul_touches.1 .thresholds (by decide)
  have leaves : comparisonLeaves s.haul.line s.spd.vMeas s.permitted s.publishHaul.osb s.publishHaul s.compareHaul :=
    compares ▸ s.publishHaul.compare_leaves
  exact leaves.of_limits ⟨vAbs.symm, t1.symm, t2.symm⟩ rfl rfl rfl

/-- An overrun trips the line together with the causes of the comparison (R83, R96). -/
theorem State.compareHaul_overruns {s : State} (hl : comparesIn s.haul.line) (h : s.overrunNow = true) :
    tookTogether .overrun s.spd.vMeas s.compareHaul.osb s s.compareHaul := by
  have compares : s.compareHaul = s.publishHaul.compareWith .overrun := if_pos h
  obtain ⟨-, t2, vAbs⟩ : _ ∧ _ ∧ _ := s.compareHaul_touches.1 .thresholds (by decide)
  have took : tookTogether .overrun s.spd.vMeas s.publishHaul.osb s.publishHaul s.compareHaul :=
    compares ▸ State.compareWith_tookTogether (s := s.publishHaul) hl (by simp)
  exact took.of_limits ⟨vAbs.symm, t2.symm⟩ rfl

/-- The fall rate is that of the run record, or the service deceleration without one (R85). -/
theorem State.fallRate_eq (s : State) : s.fallRate = (s.haul.run.map (·.aEff)).getD (s.par 0x60) := by
  unfold State.fallRate
  cases s.haul.run <;> rfl

/-! ### A sample outside RUNNING -/

/-- Outside RUNNING nothing is permitted or demanded, and v_sup falls at the fall rate (R80, R85, R86). -/
theorem State.compareHaul_of_still {s : State} (h : s.running = false) :
    s.compareHaul.haul.vPerm = 0 ∧ s.compareHaul.haul.vDem = 0
      ∧ s.compareHaul.haul.vSup = s.haul.vSup - s.fallRate * s.par 0x64 / 1000
      ∧ comparisonLeaves s.haul.line s.spd.vMeas 0 s.compareHaul.osb s s.compareHaul := by
  have perm : s.permitted = 0 := State.permitted_of_stopped h
  have dem : s.publishHaul.haul.vDem = 0 := if_neg fun moving => by simp [State.running, moving, LineState.running] at h
  have leaves := State.compareHaul_leaves (s := s) (by simp [State.overrunNow, h])
  rw [perm] at leaves
  refine ⟨s.compareHaul_haul.vPerm_zero perm, s.compareHaul_haul.vDem_zero (.inl dem), ?_, leaves⟩
  rw [s.compareHaul_vSup, perm, Nat.zero_max]

/-- A run that arrives UNREFERENCED stands in HALTED ahead of the comparison (R79). -/
theorem State.compareHaul_of_arrived (s : State) :
    let t := (s.enterHalted .notReferenced).compareHaul
    t.haul.vPerm = 0 ∧ t.haul.vDem = 0 ∧ t.record .a = none ∧ t.record .b = none ∧ t.haul.run = s.haul.run
      ∧ t.haul.haltCause = .notReferenced ∧ comparisonLeaves .halted s.spd.vMeas 0 t.osb s t := by
  intro t
  obtain ⟨halted, cause, run, -, -, -, -, -, -, -, -, a, b, -⟩ := s.enterHalted_enters .notReferenced
  have entered := (s.enterHalted_touches .notReferenced).1
  have compared := (s.enterHalted .notReferenced).compareHaul_touches.1
  have still : (s.enterHalted .notReferenced).running = false := by simp [State.running, halted, LineState.running]
  have meas : _ = (s.enterHalted .notReferenced).spd.vMeas := entered .speed (by decide)
  have hold : _ = (s.enterHalted .notReferenced).osb.hold := entered .hold (by decide)
  have count : _ = (s.enterHalted .notReferenced).osb.interventions := entered .interventions (by decide)
  have params : _ = (s.enterHalted .notReferenced).params := entered .params (by decide)
  obtain ⟨perm, dem, -, leaves⟩ := State.compareHaul_of_still still
  rw [halted, ← meas] at leaves
  exact ⟨perm, dem, State.compareHaul_absent a, State.compareHaul_absent b, (compared .run (by decide)).symm.trans run,
    (compared .haltCause (by decide)).symm.trans cause, leaves.of_limits ⟨rfl, rfl, rfl⟩ hold count params⟩

/-! ### A sample in RUNNING -/

theorem State.permitted_of_running {s : State} (h : s.running = true) {r : RunRecord} (hr : s.haul.run = some r) :
    s.permitted = leastSpeed (s.permittedTerms r) := by
  simp only [State.permitted, h, hr, if_true]

/-- OSB compares in RUNNING (R92). -/
theorem comparesIn_of_running {s : State} (h : s.running = true) : comparesIn s.haul.line := by
  cases hl : s.haul.line <;> simp [State.running, LineState.running, comparesIn, hl] at h ⊢

/-- In RUNNING the permitted speed is the least of its terms, the demand rises no faster than the ramp, and both follow
the comparison (R81, R85, R86). -/
theorem State.compareHaul_of_running {s : State} (h : s.running = true) {r : RunRecord} (hr : s.haul.run = some r) :
    let t := s.compareHaul
    let v := leastSpeed (s.permittedTerms r)
    t.haul.vSup = max v (s.haul.vSup - r.aEff * s.par 0x64 / 1000)
      ∧ t.haul.vPerm = (if t.haul.line = .tripped then 0 else v)
      ∧ (s.haul.line = .moving → t.haul.line = .moving →
          t.haul.vDem = min v (s.haul.rampFrom + s.par 0x63 * s.par 0x64 / 1000) ∧ t.haul.rampFrom = t.haul.vDem)
      ∧ (s.haul.line ≠ .moving ∨ t.haul.line ≠ .moving → t.haul.vDem = 0) := by
  intro t v
  have service : s.haul.line ≠ .tripped := fun e => by simp [State.running, e, LineState.running] at h
  have perm : s.permitted = v := State.permitted_of_running h hr
  have fall : s.fallRate = r.aEff := by rw [State.fallRate_eq, hr]; rfl
  have compared := s.compareHaul_haul
  have published : s.publishHaul.haul.vPerm = v := perm
  refine ⟨?_, ?_, fun moving stays => ?_, fun leaves => compared.vDem_zero ?_⟩
  · rw [← perm, ← fall]
    exact s.compareHaul_vSup
  · rw [← published]
    exact compared.vPerm service
  · have same : t.haul = s.publishHaul.haul := compared.eq service (stays.trans moving.symm)
    have dem : s.nextDem s.permitted = min v (s.haul.rampFrom + s.par 0x63 * s.par 0x64 / 1000) := by
      rw [perm]
      exact if_pos moving
    rw [same]
    exact ⟨dem, rfl⟩
  · by_cases moving : s.haul.line = .moving
    · have away := leaves.resolve_left (· moving)
      exact .inr fun e => away (e.trans moving)
    · exact .inl (if_neg moving)

/-- The overrun condition in RUNNING (R83). -/
theorem State.overrunNow_of_running {s : State} (h : s.running = true) {r : RunRecord} (hr : s.haul.run = some r) :
    s.overrunNow = decide (s.remaining r < -(s.window : Int)) := by
  simp only [State.overrunNow, h, hr, Option.map_some, Option.getD_some, Bool.true_and, State.overrun]

/-! ### The terms of the permitted speed -/

theorem leastSpeed_le_of_mem {l : List Nat} {x : Nat} (h : x ∈ l) : leastSpeed l ≤ x := by
  induction l with
  | nil => cases h
  | cons y l ih =>
    have least : leastSpeed (y :: l) = min y (leastSpeed l) := rfl
    rcases List.mem_cons.1 h with rfl | h
    · omega
    · have := ih h
      omega

theorem leastSpeed_mem (l : List Nat) : leastSpeed l = 12000 ∨ leastSpeed l ∈ l := by
  induction l with
  | nil => exact .inl rfl
  | cons y l ih =>
    have least : leastSpeed (y :: l) = min y (leastSpeed l) := rfl
    rcases Nat.le_total y (leastSpeed l) with h | h
    · rw [least, Nat.min_eq_left h]
      exact .inr (by simp)
    · rw [least, Nat.min_eq_right h]
      exact ih.imp_right (List.mem_cons_of_mem y)

/-! ### The sample in each case -/

theorem State.arrivedUnreferenced_of_still {s : State} (h : s.running = false) : s.arrivedUnreferenced = false := by
  cases hl : s.haul.line <;> simp [State.arrivedUnreferenced, State.running, LineState.running, hl] at h ⊢

theorem State.haulStep_of_arrived {s : State} (h : s.arrivedUnreferenced = true) :
    s.haulStep = (s.enterHalted .notReferenced).compareHaul := by
  rw [State.haulStep_eq, if_pos h]

theorem State.haulStep_of_not_arrived {s : State} (h : s.arrivedUnreferenced = false) :
    s.haulStep = s.compareHaul := by
  rw [State.haulStep_eq, if_neg (by simp [h])]

/-- The limits of a sample are read from the parameters, which an arrival leaves (R91, R110). -/
theorem State.haulStep_limits (s : State) :
    s.haulStep.osb.t1 = threshold s.haulStep.haul.vSup (s.par 0x70) (s.par 0x71)
      ∧ s.haulStep.osb.t2 = threshold s.haulStep.haul.vSup (s.par 0x72) (s.par 0x73)
      ∧ s.haulStep.osb.vAbs = s.par 0x74 := by
  have par (n : Nat) : (s.enterHalted .notReferenced).par n = s.par n :=
    State.par_congr ((s.enterHalted_touches .notReferenced).1 .params (by decide)).symm n
  cases h : s.arrivedUnreferenced with
  | true =>
    rw [State.haulStep_of_arrived h]
    simpa only [par] using (s.enterHalted .notReferenced).compareHaul_limits
  | false =>
    rw [State.haulStep_of_not_arrived h]
    exact s.compareHaul_limits

/-- Settles O50: the sample by whether the run arrives UNREFERENCED, and otherwise by whether the line runs. -/
theorem haulSampleComputesTheSpeeds : Obligations.HaulSampleComputesTheSpeeds := by
  intro s step
  let u := s.haulTicked
  have stepped := (u.haulStep_touches.trans (State.deriveBoarding_touches _)).1
  have time : _ = u.haulStep.deriveBoarding.now := stepped .time (by decide)
  have timer : _ = u.haulStep.deriveBoarding.haul.haulDue := stepped .haulTimer (by decide)
  obtain ⟨t1, t2, vAbs⟩ := u.haulStep_limits
  have derived (c : Car) := (State.deriveBoarding_touches u.haulStep).1.record (by decide) c
  have leaves {l : LineState} {p : Nat} {o : OsbState} (h : comparisonLeaves l u.spd.vMeas p o u u.haulStep) :
      comparisonLeaves l s.spd.vMeas p o s u.haulStep.deriveBoarding :=
    h.congr rfl rfl (State.deriveBoarding_haul _) (State.deriveBoarding_osb _) (State.deriveBoarding_lnk _)
  refine ⟨_, execHaulSample_eq s, time.symm, timer.symm, State.deriveBoarding_boardingInv _, ?_⟩
  rw [State.deriveBoarding_haul, State.deriveBoarding_osb, derived .a, derived .b]
  refine ⟨t1, t2, vAbs, fun still => ?_, fun arrived => ?_, fun r running hr going => ?_⟩
  · have sampled := State.haulStep_of_not_arrived (s := u) (State.arrivedUnreferenced_of_still still)
    obtain ⟨perm, dem, sup, compared⟩ := State.compareHaul_of_still (s := u) still
    rw [← sampled] at perm dem sup compared
    exact ⟨perm, dem, sup.trans (by rw [State.fallRate_eq]; rfl), leaves compared⟩
  · have sampled := State.haulStep_of_arrived (s := u) arrived
    obtain ⟨perm, dem, a, b, run, cause, compared⟩ := u.compareHaul_of_arrived
    rw [← sampled] at perm dem a b run cause compared
    exact ⟨perm, dem, a, b, run, cause, leaves compared⟩
  · have sampled := State.haulStep_of_not_arrived (s := u) going
    obtain ⟨sup, perm, dem, still⟩ := State.compareHaul_of_running (s := u) running hr
    rw [← sampled] at perm dem sup still
    dsimp only
    refine ⟨fun x hx => leastSpeed_le_of_mem hx, leastSpeed_le _, leastSpeed_mem _, sup, perm, dem, still,
      fun beyond => ?_, fun within => ?_⟩
    · have overruns : u.overrunNow = true :=
        (State.overrunNow_of_running (s := u) running hr).trans (decide_eq_true beyond)
      have took := State.compareHaul_overruns (s := u) (comparesIn_of_running running) overruns
      rw [← sampled] at took
      exact took.congr rfl (State.deriveBoarding_haul _) (State.deriveBoarding_osb _)
    · have stands : u.overrunNow = false :=
        (State.overrunNow_of_running (s := u) running hr).trans (decide_eq_false (Int.not_lt.2 within))
      have compared := State.compareHaul_leaves stands
      rw [← sampled] at compared
      rw [State.permitted_of_running (s := u) running hr] at compared
      exact leaves compared

end Sys2Proof.Machine
end

-- ==== The judgement of an uplink ====
section
/-! An uplink frame is judged by its length, parity, CRC, car id and echo, and a valid one gives the report it carries
(R113, section 11.6). -/

namespace Sys2Proof.Machine

/-- The report of an uplink's bytes (section 11.6). -/
def uplinkReport (echo doors flags l0 l1 : Byte) (now : Nat) : Report :=
  { left := doorOf (doors.toNat % 16), right := doorOf (doors.toNat / 16), echo := echo
    trackBrake := flags.getLsbD 0, alarm := flags.getLsbD 1, loadValid := flags.getLsbD 2
    unitFault := flags.getLsbD 3, load := l0.toNat * 256 + l1.toNat, takenAt := now }

/-- A frame of another length than 8 is not valid (R113). -/
theorem reportOf_of_length {frame : List Byte} (h : frame.length ≠ 8) (c : Car) (kept : List Byte) (now : Nat)
    (ok : Bool) : reportOf c kept now ok frame = none := by
  unfold reportOf
  split
  · exact absurd rfl h
  · rfl

theorem doors_low (doors : Byte) : (doors.extractLsb' 0 4).toNat = doors.toNat % 16 := by
  simp [BitVec.extractLsb'_toNat]

theorem doors_high (doors : Byte) : (doors.extractLsb' 4 4).toNat = doors.toNat / 16 := by
  have := doors.isLt
  rw [BitVec.extractLsb'_toNat, Nat.shiftRight_eq_div_pow]
  omega

theorem word2_toNat (x y : Byte) : (word2 x y).toNat = x.toNat * 256 + y.toNat := by
  rw [BitVec.toNat_append, ← Nat.shiftLeft_add_eq_or_of_lt y.isLt, Nat.shiftLeft_eq]

theorem carCode_eq_iff (c : Car) (id : Byte) : (id.toNat == carCode c + 1) = decide (id = if c = .a then 1 else 2) := by
  cases c <;> simp [carCode, BitVec.toNat_eq] <;> rfl

/-- A frame of 8 characters is valid with its parity, CRC, car id and echo (R113). -/
theorem reportOf_frame (c : Car) (kept : List Byte) (now : Nat) (ok : Bool)
    (id echo doors flags l0 l1 k0 k1 : Byte) :
    reportOf c kept now ok [id, echo, doors, flags, l0, l1, k0, k1]
      = if (ok && crcGood [id, echo, doors, flags, l0, l1, k0, k1] && decide (id = if c = .a then 1 else 2)
          && kept.contains echo) = true
        then some (uplinkReport echo doors flags l0 l1 now) else none := by
  simp only [reportOf, carCode_eq_iff, doors_low, doors_high, word2_toNat, uplinkReport]

end Sys2Proof.Machine
end

-- ==== The effects of a valid uplink ====
section
/-! What a valid uplink leaves, stage by stage: the report taken, its effect on the line, on the car's stop record by its
phase, and the passenger alarm (R75, R99, R114, R115, R118 to R124, R128). -/

namespace Sys2Proof.Machine

/-! ### The report taken -/

/-- The car's link is LIVE with its timer restarted and its last report replaced (R114, R115). -/
def State.reported (s : State) (c : Car) (r : Report) : State :=
  s.setCar c { s.car c with live := true, linkDue := some (s.now + ms (s.par 0x80)), report := some r }

/-- CAR LINK is raised where the link was LOST or the unit fault changes (R114, R115). -/
theorem State.takeReport_eq (s : State) (c : Car) (r : Report) :
    s.takeReport c r
      = if (!(s.car c).live || r.unitFault != ((s.car c).report.map (·.unitFault)).getD false) = true
        then (s.reported c r).raise .carLink else s.reported c r := rfl

theorem State.takeReport_car (s : State) (c : Car) (r : Report) :
    (s.takeReport c r).car c
      = { s.car c with live := true, linkDue := some (s.now + ms (s.par 0x80)), report := some r } := by
  rw [State.takeReport_eq]
  split <;> cases c <;> rfl

theorem State.takeReport_otherCar (s : State) (c : Car) (r : Report) :
    (s.takeReport c r).car (otherCar c) = s.car (otherCar c) := by
  rw [State.takeReport_eq]
  split <;> cases c <;> rfl

theorem State.takeReport_record (s : State) (c k : Car) (r : Report) : (s.takeReport c r).record k = s.record k :=
  (s.takeReport_touches c r).1.record (by decide) k

theorem State.takeReport_now (s : State) (c : Car) (r : Report) : (s.takeReport c r).now = s.now :=
  ((s.takeReport_touches c r).1 .time (by decide)).symm

theorem State.takeReport_haul (s : State) (c : Car) (r : Report) : (s.takeReport c r).haul = s.haul := by
  rw [State.takeReport_eq]
  split <;> cases c <;> rfl

theorem State.takeReport_geo (s : State) (c : Car) (r : Report) : (s.takeReport c r).geo = s.geo := by
  rw [State.takeReport_eq]
  split <;> cases c <;> rfl

theorem State.takeReport_spd (s : State) (c : Car) (r : Report) : (s.takeReport c r).spd = s.spd := by
  rw [State.takeReport_eq]
  split <;> cases c <;> rfl

theorem State.takeReport_par (s : State) (c : Car) (r : Report) (n : Nat) : (s.takeReport c r).par n = s.par n :=
  State.par_congr ((s.takeReport_touches c r).1 .params (by decide)).symm n

/-- Both sides of the report are LOCKED (R99, R123). -/
def Report.locked (r : Report) : Bool := decide (r.left = .locked ∧ r.right = .locked)

/-- One side of the report is LOCKED (R121). -/
def Report.sideLocked (r : Report) (d : Side) : Bool :=
  (match d with | .left => r.left | .right => r.right) == .locked

theorem State.takeReport_locked (s : State) (c : Car) (r : Report) :
    ((s.takeReport c r).car c).locked = r.locked := by
  rw [State.takeReport_car]
  simp only [CarState.locked, CarState.sideLocked, Report.locked]
  cases r.left <;> cases r.right <;> rfl

/-! ### The effect on the line -/

theorem State.lineUplink_of_locked {s : State} {c : Car} (h : (s.car c).locked = true) : s.lineUplink c = s := if_pos h

theorem State.lineUplink_of_stop {s : State} (c : Car) (h : s.haul.line = .dwell ∨ s.haul.line = .tripped) :
    s.lineUplink c = s := by
  unfold State.lineUplink
  rcases h with h | h <;> simp only [h, ite_self]

/-- A side that is not LOCKED trips a moving line (R99). -/
theorem State.lineUplink_of_moving {s : State} {c : Car} (open_ : (s.car c).locked = false)
    (h : s.haul.line = .moving ∨ s.haul.line = .intervening ∨ (s.haul.line = .halted ∧ s.atRest = false)) :
    s.lineUplink c = s.enterTripped .doorOpen := by
  unfold State.lineUplink
  rcases h with h | h | ⟨h, moving⟩ <;> simp [State.takeCause, *]

/-- A side that is not LOCKED ends a start (R75). -/
theorem State.lineUplink_of_starting {s : State} {c : Car} (open_ : (s.car c).locked = false)
    (h : s.haul.line = .starting) : s.lineUplink c = s.endStart .noCause .doors := by
  unfold State.lineUplink
  simp [open_, h]

/-! ### The effect on the stop record -/

theorem State.recordUplink_of_absent {s : State} {c : Car} (h : s.record c = none) : s.recordUplink c = s := by
  simp only [State.recordUplink, h]

theorem State.recordUplink_of_arrived {s : State} {c : Car} {q : StopRecord} (hq : s.record c = some q)
    (hp : q.phase = .arrived) : s.recordUplink c = s.testArrived c := by
  simp only [State.recordUplink, hq, hp]

theorem State.recordUplink_of_alighting {s : State} {c : Car} {q : StopRecord} {y : Close} (hq : s.record c = some q)
    (hp : q.phase = .alighting) (hy : q.close = some y) :
    s.recordUplink c = if s.confirms c q y then s.alightDone c q else s := by
  simp only [State.recordUplink, hq, hp, hy]

theorem State.recordUplink_of_waiting {s : State} {c : Car} {q : StopRecord} (hq : s.record c = some q)
    (h : q.phase = .boarding ∨ ((q.phase = .alighting ∨ q.phase = .closing) ∧ q.close = none)) :
    s.recordUplink c = s := by
  rcases h with hp | ⟨hp | hp, hy⟩
  · simp only [State.recordUplink, hq, hp]
  · simp only [State.recordUplink, hq, hp, hy]
  · simp only [State.recordUplink, hq, hp, hy]

theorem State.recordUplink_of_ready {s : State} {c : Car} {q : StopRecord} (hq : s.record c = some q)
    (hp : q.phase = .ready) :
    s.recordUplink c
      = if (!(s.car c).locked && (s.haul.line == .dwell || s.haul.line == .tripped)) = true then s.enterClosing c
        else s := by
  simp only [State.recordUplink, hq, hp]

/-- The record of a car in CLOSING with a close commanded (R123). -/
theorem State.recordUplink_of_closing {s : State} {c : Car} {q : StopRecord} {y : Close} (hq : s.record c = some q)
    (hp : q.phase = .closing) (hy : q.close = some y) :
    s.recordUplink c
      = if y.confirmed = true then
          if (s.car c).locked = true then s.tryReady c
          else s.modRecord c fun q =>
            { q with close := some { y with confirmed := false }, closeDue := some (s.now + sec (s.par 0x82)) }
        else if s.confirms c q y = true then
          (s.modRecord c fun q => { q with close := some { y with confirmed := true }, closeDue := none }).tryReady c
        else s := by
  simp only [State.recordUplink, hq, hp, hy]

/-- The awaited sides and the echo of a close (R119). -/
theorem State.confirms_of_report {s : State} {c : Car} {r : Report} (h : (s.car c).report = some r) (q : StopRecord)
    (y : Close) :
    s.confirms c q y = (decide ((s.car c).kept.findIdx (fun z => z == r.echo) < y.frames) && s.awaitedLocked c q y) := by
  simp only [State.confirms, h]
  rfl

theorem State.tryReady_of_waiting {s : State} {c : Car} {q : StopRecord} (hq : s.record c = some q)
    (h : q.held ≠ 0 ∨ q.reopening = true) : s.tryReady c = s := by
  simp only [State.tryReady, hq]
  refine if_neg ?_
  rintro ⟨-, still, -, none⟩
  rcases h with h | h
  · exact h none
  · simp [still] at h

theorem State.tryReady_of_done {s : State} {c : Car} {q : StopRecord} {y : Close} (hq : s.record c = some q)
    (hp : q.phase = .closing) (hr : q.reopening = false) (hy : q.close = some y) (hc : y.confirmed = true)
    (hh : q.held = 0) : s.tryReady c = s.enterReady c := by
  simp only [State.tryReady, hq]
  exact if_pos ⟨hp, hr, by simp [hy, hc], hh⟩

/-! ### The other car -/

theorem State.setRecord_otherCar (s : State) (c : Car) (r : Option StopRecord) :
    (s.setRecord c r).car (otherCar c) = s.car (otherCar c) := s.setCar_other c _

theorem State.modRecord_otherCar (s : State) (c : Car) (f : StopRecord → StopRecord) :
    (s.modRecord c f).car (otherCar c) = s.car (otherCar c) := by
  unfold State.modRecord
  split
  · exact s.setRecord_otherCar c _
  · rfl

theorem State.raise_car (s : State) (a : Attention) (k : Car) : (s.raise a).car k = s.car k := by cases k <;> rfl

theorem State.setLoad_car (s : State) (c k : Car) (n : Nat) : (s.setLoad c n).car k = s.car k := by
  cases c <;> cases k <;> rfl

theorem State.commandClose_otherCar (s : State) (c : Car) (b : Bool) :
    (s.commandClose c b).car (otherCar c) = s.car (otherCar c) := s.modRecord_otherCar c _

theorem State.enterClosing_otherCar (s : State) (c : Car) :
    (s.enterClosing c).car (otherCar c) = s.car (otherCar c) := by
  rw [State.enterClosing, State.raise_car, State.commandClose_otherCar, State.modRecord_otherCar]

theorem State.enterReady_otherCar (s : State) (c : Car) :
    (s.enterReady c).car (otherCar c) = s.car (otherCar c) := by
  unfold State.enterReady
  split
  · rfl
  · rw [State.raise_car, State.setLoad_car, State.setRecord_otherCar]

theorem State.tryReady_otherCar (s : State) (c : Car) : (s.tryReady c).car (otherCar c) = s.car (otherCar c) := by
  unfold State.tryReady
  split
  · rfl
  · split
    · exact s.enterReady_otherCar c
    · rfl

theorem State.enterBoarding_otherCar (s : State) (c : Car) :
    (s.enterBoarding c).car (otherCar c) = s.car (otherCar c) := by
  unfold State.enterBoarding
  split
  · rfl
  · rw [State.raise_car, State.setRecord_otherCar]

theorem State.testBerthed_otherCar (s : State) (c : Car) :
    (s.testBerthed c).car (otherCar c) = s.car (otherCar c) := by
  rcases s.testBerthed_cases c with ⟨e, -⟩ | ⟨r, -, e⟩
  · rw [e]
  · rw [e, State.raise_car, State.setRecord_otherCar]

theorem State.testInspection_otherCar (s : State) (c : Car) :
    (s.testInspection c).car (otherCar c) = s.car (otherCar c) := by
  unfold State.testInspection
  split
  · rfl
  · split
    · rw [State.enterReady_otherCar, State.setRecord_otherCar]
    · rfl

theorem State.alightDone_otherCar (s : State) (c : Car) (q : StopRecord) :
    (s.alightDone c q).car (otherCar c) = s.car (otherCar c) := by
  rw [State.alightDone, State.enterBoarding_otherCar]
  split
  · exact s.setCar_other c _
  · rfl

/-- A report acts on its own car's stop record alone (R119 to R124). -/
theorem State.recordUplink_otherCar (s : State) (c : Car) :
    (s.recordUplink c).car (otherCar c) = s.car (otherCar c) := by
  cases hq : s.record c with
  | none => rw [State.recordUplink_of_absent hq]
  | some q =>
    cases hp : q.phase with
    | arrived =>
      rw [State.recordUplink_of_arrived hq hp, State.testArrived, State.testInspection_otherCar,
        State.testBerthed_otherCar]
    | boarding => rw [State.recordUplink_of_waiting hq (.inl hp)]
    | alighting =>
      cases hy : q.close with
      | none => rw [State.recordUplink_of_waiting hq (.inr ⟨.inl hp, hy⟩)]
      | some y =>
        rw [State.recordUplink_of_alighting hq hp hy]
        split
        · exact s.alightDone_otherCar c q
        · rfl
    | closing =>
      cases hy : q.close with
      | none => rw [State.recordUplink_of_waiting hq (.inr ⟨.inr hp, hy⟩)]
      | some y =>
        rw [State.recordUplink_of_closing hq hp hy]
        split
        · split
          · exact s.tryReady_otherCar c
          · exact s.modRecord_otherCar c _
        · split
          · rw [State.tryReady_otherCar, State.modRecord_otherCar]
          · rfl
    | ready =>
      rw [State.recordUplink_of_ready hq hp]
      split
      · exact s.enterClosing_otherCar c
      · rfl

/-! ### The phases of the record -/

theorem State.modRecord_of_record {s : State} {c : Car} {q : StopRecord} (hq : s.record c = some q)
    (f : StopRecord → StopRecord) : s.modRecord c f = s.setRecord c (some (f q)) := by
  simp only [State.modRecord, hq]

/-- The entry to CLOSING, or the return to it: both sides are commanded closed (R123, R124). -/
theorem State.enterClosing_of_record {s : State} {c : Car} {q : StopRecord} (hq : s.record c = some q) :
    (s.enterClosing c).record c = some
        { q with
          phase := .closing, phaseDue := none, reopening := false, close := some ⟨false, 0, false⟩
          closeDue := some (s.now + sec (s.par 0x82)) }
      ∧ hasAttention (s.enterClosing c) .stopPhase = true := by
  refine ⟨?_, State.hasAttention_raise _ _⟩
  rw [State.enterClosing, State.record, State.raise_car, ← State.record, State.commandClose, State.modRecord_record,
    State.modRecord_record, hq, State.modRecord_of_record hq]
  cases c <;> rfl

/-- A confirmed exit close: BOARDING, weighed with the admitted-run count, which is 0 again at a terminal (R118, R121,
R122). -/
theorem State.alightDone_of_record {s : State} {c : Car} {q : StopRecord} (hq : s.record c = some q) :
    let admitted := if q.station = 0 ∨ q.station = 3 then 0 else (s.car c).admitted
    (s.alightDone c q).record c = some
        { q with
          phase := .boarding, wOpen := some (s.weigh c admitted), quota := s.capacity - s.weigh c admitted
          phaseDue := some (s.now + sec (((s.geo.active.station q.station).map (·.board)).getD 0))
          closeDue := none, close := none }
      ∧ ((s.alightDone c q).car c).admitted = admitted ∧ hasAttention (s.alightDone c q) .stopPhase = true := by
  intro admitted
  let u := s.setCar c { s.car c with admitted := admitted }
  have counted : s.alightDone c q = u.enterBoarding c := by
    have same : s.setCar c (s.car c) = s := by cases c <;> rfl
    simp only [u, admitted, State.alightDone]
    split
    · rfl
    · exact congrArg (fun v => State.enterBoarding v c) same.symm
  have record : u.record c = some q := by
    rw [State.record, State.setCar_car]
    exact hq
  rw [counted, State.enterBoarding_of_record record]
  refine ⟨?_, ?_, State.hasAttention_raise _ _⟩
  · rw [State.record, State.raise_car, ← State.record, State.setRecord_record]
    cases c <;> rfl
  · rw [State.raise_car]
    cases c <;> rfl

/-- The load figure of a car (R71). -/
def HaulState.loadOf (h : HaulState) : Car → Option Nat
  | .a => h.loadA
  | .b => h.loadB

/-- The record and the load figure of an entry to READY (R71, R124). -/
theorem State.enterReady_loads {s : State} {c : Car} {q : StopRecord} (hq : s.record c = some q) :
    (s.enterReady c).record c = some
        { q with phase := .ready, phaseDue := none, closeDue := none, close := none, reopening := false }
      ∧ (s.enterReady c).haul.loadOf c
          = some (min 250 (max (s.weigh c (q.wOpen.getD 0 + q.boarded)) (q.wOpen.getD 0 + q.boarded)))
      ∧ hasAttention (s.enterReady c) .stopPhase = true := by
  simp only [State.enterReady, hq]
  refine ⟨?_, ?_, State.hasAttention_raise _ _⟩
  · rw [State.record, State.raise_car, State.setLoad_car, ← State.record, State.setRecord_record]
  · cases c <;> rfl

/-- The confirmation of a close of both sides that is fulfilled enters READY (R119, R123, R124). -/
theorem State.recordUplink_readies {s : State} {c : Car} {q : StopRecord} {y : Close} (hq : s.record c = some q)
    (hp : q.phase = .closing) (hy : q.close = some y) (locked : (s.car c).locked = true)
    (h : y.confirmed = true ∨ s.confirms c q y = true) (held : q.held = 0) (still : q.reopening = false) :
    ∃ p : StopRecord, (s.recordUplink c).record c = some p ∧ p.phase = .ready ∧ p.closeDue = none
      ∧ p.boarded = q.boarded
      ∧ (s.recordUplink c).haul.loadOf c
          = some (min 250 (max (s.weigh c (q.wOpen.getD 0 + q.boarded)) (q.wOpen.getD 0 + q.boarded)))
      ∧ hasAttention (s.recordUplink c) .stopPhase = true := by
  rw [State.recordUplink_of_closing hq hp hy]
  cases hc : y.confirmed with
  | true =>
    obtain ⟨record, loads, raised⟩ := State.enterReady_loads hq
    rw [if_pos rfl, if_pos locked, State.tryReady_of_done hq hp still hy hc held]
    exact ⟨_, record, rfl, rfl, rfl, loads, raised⟩
  | false =>
    let f : StopRecord → StopRecord := fun q => { q with close := some { y with confirmed := true }, closeDue := none }
    have confirmed : (s.modRecord c f).record c = some (f q) := by rw [State.modRecord_record, hq, Option.map_some]
    have weigh (n : Nat) : (s.modRecord c f).weigh c n = s.weigh c n := by
      rw [State.modRecord_of_record hq]
      cases c <;> rfl
    obtain ⟨record, loads, raised⟩ := State.enterReady_loads confirmed
    rw [weigh] at loads
    rw [if_neg (by simp), if_pos (h.resolve_left (by simp [hc])),
      State.tryReady_of_done confirmed hp still rfl rfl held]
    exact ⟨_, record, rfl, rfl, rfl, loads, raised⟩

/-! ### The passenger alarm -/

/-- The alarm is recorded in the record of a stop in DWELL or TRIPPED, and is pending otherwise (R128). -/
theorem State.takeAlarm_of_stop {s : State} {c : Car} (hl : s.haul.line = .dwell ∨ s.haul.line = .tripped)
    {p : StopRecord} (hp : s.record c = some p) :
    s.takeAlarm c = (s.raise .passengerAlarm).setRecord c (some { p with alarm := true }) := by
  have record : (s.raise .passengerAlarm).record c = some p := by rw [State.record, State.raise_car]; exact hp
  rw [State.takeAlarm, if_pos ⟨hl, by rw [hp]; rfl⟩, State.modRecord_of_record record]

theorem State.takeAlarm_of_pending {s : State} {c : Car}
    (h : ¬((s.haul.line = .dwell ∨ s.haul.line = .tripped) ∧ (s.record c).isSome)) :
    s.takeAlarm c = (s.raise .passengerAlarm).setCar c
      { (s.raise .passengerAlarm).car c with pendingAlarm := true } := if_neg h

theorem State.takeAlarm_otherCar (s : State) (c : Car) :
    (s.takeAlarm c).car (otherCar c) = s.car (otherCar c) := by
  unfold State.takeAlarm
  dsimp only
  split
  · rw [State.modRecord_otherCar, State.raise_car]
  · rw [State.setCar_other, State.raise_car]

/-- Either way it stands recorded (R128). -/
theorem State.takeAlarm_recorded (s : State) (c : Car) :
    hasAttention (s.takeAlarm c) .passengerAlarm = true
      ∧ ((∃ q ∈ (s.takeAlarm c).record c, q.alarm = true) ∨ ((s.takeAlarm c).car c).pendingAlarm = true) := by
  by_cases h : (s.haul.line = .dwell ∨ s.haul.line = .tripped) ∧ (s.record c).isSome
  · obtain ⟨p, hp⟩ := Option.isSome_iff_exists.1 h.2
    rw [State.takeAlarm_of_stop h.1 hp]
    refine ⟨?_, .inl ⟨_, State.setRecord_record _ c _, rfl⟩⟩
    exact (State.setRecord_touches _ c _).2.hasAttention (State.hasAttention_raise _ _)
  · rw [State.takeAlarm_of_pending h]
    refine ⟨?_, .inr (by rw [State.setCar_car])⟩
    cases c <;> exact State.hasAttention_raise _ _

/-- What an uplink's report does at last: a new alarm is recorded and the boarding states are derived (R128, R156). -/
def State.alarmed (s : State) (c : Car) (new : Bool) : State := (if new then s.takeAlarm c else s).deriveBoarding

theorem State.alarmed_touches (s : State) (c : Car) (new : Bool) :
    touches [.records, .alarms, .attention, .boarding] s (s.alarmed c new) :=
  ((touches.ite (s.takeAlarm_touches c) (touches.refl _ s)).trans (State.deriveBoarding_touches _)).mono (by decide)

theorem State.deriveBoarding_car (s : State) (k : Car) : s.deriveBoarding.car k = s.car k := by
  cases k with
  | a => exact congrArg StpState.carA s.deriveBoarding_stp
  | b => exact congrArg StpState.carB s.deriveBoarding_stp

theorem State.alarmed_record {s : State} {c : Car} (hl : s.haul.line = .dwell ∨ s.haul.line = .tripped)
    {p : StopRecord} (hp : s.record c = some p) (new : Bool) :
    (s.alarmed c new).record c = some { p with alarm := p.alarm || new } := by
  rw [State.alarmed, State.record, State.deriveBoarding_car, ← State.record]
  cases new with
  | false => rw [if_neg (by simp), hp, Bool.or_false]
  | true => rw [if_pos rfl, State.takeAlarm_of_stop hl hp, State.setRecord_record, Bool.or_true]

theorem State.alarmed_otherCar (s : State) (c : Car) (new : Bool) :
    (s.alarmed c new).car (otherCar c) = s.car (otherCar c) := by
  rw [State.alarmed, State.deriveBoarding_car]
  split
  · exact s.takeAlarm_otherCar c
  · rfl

theorem State.alarmed_haul (s : State) (c : Car) (new : Bool) : (s.alarmed c new).haul = s.haul := by
  rw [State.alarmed, State.deriveBoarding_haul]
  split
  · unfold State.takeAlarm
    dsimp only
    split
    · rw [State.modRecord_haul]; rfl
    · cases c <;> rfl
  · rfl

/-- A new alarm stands recorded (R128). -/
theorem State.alarmed_recorded (s : State) (c : Car) :
    hasAttention (s.alarmed c true) .passengerAlarm = true
      ∧ ((∃ q ∈ (s.alarmed c true).record c, q.alarm = true) ∨ ((s.alarmed c true).car c).pendingAlarm = true) := by
  simpa only [State.alarmed, if_true, hasAttention, State.deriveBoarding_lnk, State.record, State.deriveBoarding_car]
    using s.takeAlarm_recorded c

end Sys2Proof.Machine
end

-- ==== An uplink as a whole ====
section
/-! The state that an uplink leaves: the link, the line, the stop record by its phase and its close, and the alarm (R75,
R99, R113 to R115, R118 to R124, R128). -/

namespace Sys2Proof.Machine

/-! ### The stages put together -/

/-- The alarm of a report is new (R128). -/
def State.newAlarm (s : State) (c : Car) (r : Report) : Bool :=
  r.alarm && !((s.car c).report.map (·.alarm)).getD false

/-- The state that a valid uplink leaves (R113, R114, R156). -/
def State.uplinked (s : State) (c : Car) (r : Report) : State :=
  (((s.takeReport c r).lineUplink c).recordUplink c).alarmed c (s.newAlarm c r)

theorem execUplink_of_valid {c : Car} {ok : Bool} {frame : List Byte} {s : State} {r : Report}
    (h : reportOf c (s.car c).kept s.now ok frame = some r) : execUplink c ok frame s = .next (s.uplinked c r) := by
  simp only [execUplink, h]
  rfl

theorem execUplink_of_invalid {c : Car} {ok : Bool} {frame : List Byte} {s : State}
    (h : reportOf c (s.car c).kept s.now ok frame = none) : execUplink c ok frame s = .next s := by
  simp only [execUplink, h]

theorem State.uplinked_boardingInv (s : State) (c : Car) (r : Report) : boardingInv (s.uplinked c r) :=
  State.deriveBoarding_boardingInv _

/-- The parts that an uplink may change once it has acted on the line. -/
abbrev uplinkParts : List Part := phaseParts ++ [.records, .alarms, .attention, .boarding]

theorem State.uplinked_afterLine (s : State) (c : Car) (r : Report) :
    touches uplinkParts ((s.takeReport c r).lineUplink c) (s.uplinked c r) :=
  (State.recordUplink_touches _ c).trans (State.alarmed_touches _ c _)

theorem State.uplinked_touches (s : State) (c : Car) (r : Report) :
    touches (transitionParts ++ [.latch, .hold, .resetWait] ++ uplinkParts) (s.takeReport c r) (s.uplinked c r) :=
  (State.lineUplink_touches _ c).trans (s.uplinked_afterLine c r)

theorem keptBut.live {parts : List Part} {s t : State} (h : keptBut parts s t) (hp : Part.links ∉ parts) (c : Car) :
    (t.car c).live = (s.car c).live ∧ (t.car c).linkDue = (s.car c).linkDue := by
  obtain ⟨⟨liveA, dueA, -⟩, ⟨liveB, dueB, -⟩⟩ : (_ ∧ _ ∧ _) ∧ (_ ∧ _ ∧ _) := h .links hp
  cases c with
  | a => exact ⟨liveA.symm, dueA.symm⟩
  | b => exact ⟨liveB.symm, dueB.symm⟩

theorem keptBut.report {parts : List Part} {s t : State} (h : keptBut parts s t) (hp : Part.reports ∉ parts) (c : Car) :
    (t.car c).report = (s.car c).report := by
  obtain ⟨a, b⟩ : _ ∧ _ := h .reports hp
  cases c with
  | a => exact a.symm
  | b => exact b.symm

theorem keptBut.admitted {parts : List Part} {s t : State} (h : keptBut parts s t) (hp : Part.admitted ∉ parts)
    (c : Car) : (t.car c).admitted = (s.car c).admitted := by
  obtain ⟨a, b⟩ : _ ∧ _ := h .admitted hp
  cases c with
  | a => exact a.symm
  | b => exact b.symm

/-- A car's sides are LOCKED by its last report (R115). -/
theorem CarState.locked_congr {x y : CarState} (h : x.report = y.report) : x.locked = y.locked := by
  simp only [CarState.locked, CarState.sideLocked, h]

/-- The link after a valid uplink (R114). -/
theorem State.uplinked_link (s : State) (c : Car) (r : Report) :
    ((s.uplinked c r).car c).live = true
      ∧ ((s.uplinked c r).car c).linkDue = some (s.now + ms (s.par 0x80))
      ∧ ((s.uplinked c r).car c).report = some r := by
  have later := (s.uplinked_touches c r).1
  obtain ⟨live, due⟩ := later.live (by decide) c
  rw [live, due, later.report (by decide) c, State.takeReport_car]
  exact ⟨rfl, rfl, rfl⟩

/-- CAR LINK is raised where the link was LOST or its unit fault changes (R114, R115). -/
theorem State.uplinked_raises {s : State} {c : Car} {r : Report}
    (h : (s.car c).live = false ∨ r.unitFault ≠ ((s.car c).report.map (·.unitFault)).getD false) :
    hasAttention (s.uplinked c r) .carLink = true := by
  refine (s.uplinked_touches c r).2.hasAttention ?_
  rw [State.takeReport_eq, if_pos (by rcases h with h | h <;> simp [h])]
  exact State.hasAttention_raise _ _

/-! ### A side that is not LOCKED -/

/-- A moving line trips with DOOR OPEN (R99). -/
theorem State.uplinked_trips {s : State} {c : Car} {r : Report} (open_ : r.locked = false)
    (h : s.haul.line = .moving ∨ s.haul.line = .intervening ∨ (s.haul.line = .halted ∧ s.atRest = false)) :
    (s.uplinked c r).haul.line = .tripped ∧ (s.uplinked c r).osb.first = some .doorOpen
      ∧ (s.uplinked c r).osb.fromState = some s.haul.line := by
  have trips : (s.takeReport c r).lineUplink c = (s.takeReport c r).enterTripped .doorOpen := by
    refine State.lineUplink_of_moving ((s.takeReport_locked c r).trans open_) ?_
    rwa [State.takeReport_haul, State.atRest, State.takeReport_spd]
  have later := (trips ▸ s.uplinked_afterLine c r).1
  have line : _ = (s.uplinked c r).haul.line := later .line (by decide)
  obtain ⟨first, from_, -⟩ : _ ∧ _ ∧ _ := later .latch (by decide)
  rw [← line, ← first, ← from_, State.enterTripped_haul, State.enterTripped_osb, State.takeReport_haul]
  exact ⟨rfl, rfl, rfl⟩

/-- A change of records that leaves each record as it was changes no record. -/
theorem touches.of_sameRecords {parts : List Part} {s t : State} (h : touches (.records :: parts) s t)
    (same : ∀ c, t.record c = s.record c) : touches parts s t := by
  refine ⟨fun p hp => ?_, h.2⟩
  by_cases hr : p = .records
  · subst hr
    exact ⟨(same .a).symm, (same .b).symm⟩
  · exact h.1 p (by simp [hr, hp])

/-- A car without a record has none after the alarm (R128). -/
theorem State.alarmed_absent {s : State} {c : Car} (h : s.record c = none) (new : Bool) :
    (s.alarmed c new).record c = none := by
  rw [State.alarmed, State.record, State.deriveBoarding_car]
  split
  · rw [State.takeAlarm_of_pending (by simp [h]), State.setCar_car]
    exact (congrArg CarState.record (s.raise_car _ c)).trans h
  · exact h

theorem State.alarmed_sameRecords {s : State} (h : ∀ k, s.record k = none) (c : Car) (new : Bool) :
    touches [.alarms, .attention, .boarding] s (s.alarmed c new) := by
  refine (s.alarmed_touches c new).of_sameRecords fun k => ?_
  by_cases hk : k = c
  · rw [hk, State.alarmed_absent (h c), h c]
  · rw [otherCar_of_ne hk, State.record, State.alarmed_otherCar, State.record]

/-- A start made from HALTED returns there (R75). -/
theorem State.uplinked_halts {s : State} {c : Car} {r : Report} (open_ : r.locked = false)
    (h : s.haul.line = .starting) {q : RunRecord} (hq : s.haul.run = some q) (origin : q.origin = .halted) :
    enteredHalted .doors s (s.uplinked c r) := by
  let w := s.takeReport c r
  have halts : w.lineUplink c = w.enterHalted .doors := by
    have starting : w.haul.line = .starting := by rw [State.takeReport_haul, h]
    have run : w.haul.run = some q := by rw [State.takeReport_haul, hq]
    rw [State.lineUplink_of_starting ((s.takeReport_locked c r).trans open_) starting, State.endStart_of_run run,
      if_neg (by simp [origin])]
  have entered := w.enterHalted_enters .doors
  have absent (k : Car) : (w.enterHalted .doors).record k = none := State.discardRecords_absent _ k
  rw [State.uplinked, halts, State.recordUplink_of_absent (absent c)]
  exact (entered.of_touches (State.alarmed_sameRecords absent c _) (by decide)).from (by rw [State.takeReport_haul])
    (by rw [State.takeReport_haul])

/-- A start made from DWELL returns there, and a READY record of the car returns to CLOSING (R75, R124). -/
theorem State.uplinked_dwells {s : State} {c : Car} {r : Report} (open_ : r.locked = false)
    (h : s.haul.line = .starting) {q : RunRecord} (hq : s.haul.run = some q) (origin : q.origin = .dwell) :
    standsInDwell s (s.uplinked c r) ∧ (s.uplinked c r).haul.haltCause = .noCause
      ∧ ∀ p, s.record c = some p → p.phase = .ready →
        ∃ x ∈ (s.uplinked c r).record c, x.phase = .closing ∧ x.close = some ⟨false, 0, false⟩
          ∧ x.closeDue = some (s.now + sec (s.par 0x82)) := by
  let w := s.takeReport c r
  let d := w.returnToDwell .noCause
  have dwells : w.lineUplink c = d := by
    have starting : w.haul.line = .starting := by rw [State.takeReport_haul, h]
    have run : w.haul.run = some q := by rw [State.takeReport_haul, hq]
    rw [State.lineUplink_of_starting ((s.takeReport_locked c r).trans open_) starting, State.endStart_of_run run,
      if_pos origin]
  have later : touches uplinkParts d (s.uplinked c r) := dwells ▸ s.uplinked_afterLine c r
  have stands := (w.returnToDwell_stands .noCause).of_touches later (by decide)
  have back := (w.returnToDwell_touches .noCause).1
  refine ⟨?_, (later.1 .haltCause (by decide)).symm.trans (w.returnToDwell_haltCause .noCause), fun p hp ready => ?_⟩
  · simpa only [standsInDwell, w, State.takeReport_par] using stands
  · obtain ⟨line, -⟩ := w.returnToDwell_stands .noCause
    have record : d.record c = some { p with alarm := p.alarm || (w.car c).pendingAlarm } := by
      rw [State.returnToDwell_record, State.takeReport_record, hp, Option.map_some]
    have unlocked : (d.car c).locked = false := by
      rw [CarState.locked_congr (back.report (by decide) c), State.takeReport_locked, open_]
    have closes : d.recordUplink c = d.enterClosing c := by
      rw [State.recordUplink_of_ready record ready]
      exact if_pos (by simp [unlocked, show d.haul.line = .dwell from line])
    obtain ⟨closing, -⟩ := State.enterClosing_of_record record
    have now : d.now = s.now := (back .time (by decide)).symm.trans (s.takeReport_now c r)
    have par : d.par 0x82 = s.par 0x82 :=
      (State.par_congr (back .params (by decide)).symm _).trans (s.takeReport_par c r _)
    have dwell : (d.enterClosing c).haul.line = .dwell :=
      ((d.enterClosing_touches c).1 .line (by decide)).symm.trans line
    rw [State.uplinked, dwells, closes, State.alarmed_record (.inl dwell) closing, now, par]
    exact ⟨_, rfl, rfl, rfl, rfl⟩

/-- A report with both sides LOCKED leaves the line (R75, R99). -/
theorem State.uplinked_of_locked {s : State} {c : Car} {r : Report} (h : r.locked = true) :
    s.uplinked c r = ((s.takeReport c r).recordUplink c).alarmed c (s.newAlarm c r) := by
  rw [State.uplinked, State.lineUplink_of_locked ((s.takeReport_locked c r).trans h)]

/-- In DWELL and TRIPPED a report leaves the line (R75, R99). -/
theorem State.uplinked_of_stop {s : State} {c : Car} {r : Report} (h : s.haul.line = .dwell ∨ s.haul.line = .tripped) :
    s.uplinked c r = ((s.takeReport c r).recordUplink c).alarmed c (s.newAlarm c r) := by
  rw [State.uplinked, State.lineUplink_of_stop c (by rwa [State.takeReport_haul])]

theorem State.reportedUplink_line (s : State) (c : Car) (r : Report) :
    (((s.takeReport c r).recordUplink c).alarmed c (s.newAlarm c r)).haul.line = s.haul.line := by
  rw [State.alarmed_haul, ← State.takeReport_haul s c r]
  exact ((State.recordUplink_touches _ c).1 .line (by decide)).symm

/-! ### The phases of a stop -/

/-- The weighing of a car at a report (R118). -/
theorem State.weigh_of_report {s : State} {c : Car} {r : Report} (h : (s.car c).report = some r) (n : Nat) :
    s.weigh c n = if r.loadValid then (r.load + s.par 0x83 - 1) / s.par 0x83 else n := by
  simp only [State.weigh, h]

/-- An echo of a frame built after the close was commanded (R119). -/
def State.echoed (s : State) (c : Car) (r : Report) (y : Close) : Bool :=
  decide ((s.car c).kept.findIdx (fun z => z == r.echo) < y.frames)

theorem State.takeReport_report (s : State) (c : Car) (r : Report) : ((s.takeReport c r).car c).report = some r := by
  rw [State.takeReport_car]

/-- A close of both sides is confirmed by an echo and both sides LOCKED (R119, R123). -/
theorem State.takeReport_confirms (s : State) (c : Car) (r : Report) (q : StopRecord) {y : Close}
    (h : y.exitOnly = false) : (s.takeReport c r).confirms c q y = (s.echoed c r y && r.locked) := by
  rw [State.confirms_of_report (s.takeReport_report c r), State.awaitedLocked, h, if_neg (by simp),
    State.takeReport_locked, State.takeReport_car]
  rfl

/-- An exit close is confirmed by an echo and the exit side LOCKED (R119, R121). -/
theorem State.takeReport_confirmsExit {s : State} (c : Car) (r : Report) {q : StopRecord} {y : Close} {z : Station}
    {d : Side} (h : y.exitOnly = true) (hz : s.geo.active.station q.station = some z)
    (hd : z.separateExit = some d) :
    (s.takeReport c r).confirms c q y = (s.echoed c r y && r.sideLocked d) := by
  rw [State.confirms_of_report (s.takeReport_report c r), State.awaitedLocked, h, if_pos rfl, State.takeReport_geo, hz,
    Option.bind_some, hd, State.takeReport_car]
  rfl

/-- Without an echo of a frame built since nothing is confirmed (R119). -/
theorem State.takeReport_unconfirmed {s : State} {c : Car} {r : Report} (q : StopRecord) {y : Close}
    (h : s.echoed c r y = false) : (s.takeReport c r).confirms c q y = false := by
  have unechoed : decide (((s.takeReport c r).car c).kept.findIdx (fun z => z == r.echo) < y.frames) = false := by
    rw [State.takeReport_car]
    exact h
  rw [State.confirms_of_report (s.takeReport_report c r), unechoed, Bool.false_and]

/-- The alarm changes no more of a record than its alarm flag (R128). -/
theorem State.alarmed_keeps {s : State} {c : Car} {p : StopRecord} (hp : s.record c = some p) (new : Bool) :
    ∃ a, (s.alarmed c new).record c = some { p with alarm := a } := by
  by_cases hl : s.haul.line = .dwell ∨ s.haul.line = .tripped
  · exact ⟨_, State.alarmed_record hl hp new⟩
  · refine ⟨p.alarm, ?_⟩
    rw [State.alarmed, State.record, State.deriveBoarding_car]
    split
    · rw [State.takeAlarm_of_pending (fun h => hl h.1), State.setCar_car]
      exact (congrArg CarState.record (s.raise_car _ c)).trans hp
    · exact hp

/-- A fulfilled close of both sides readies the record, with the car's load figure (R123, R124). -/
theorem State.uplinked_readies {s : State} {c : Car} {r : Report} {q : StopRecord} {y : Close}
    (hq : s.record c = some q) (hp : q.phase = .closing) (hy : q.close = some y) (exits : y.exitOnly = false)
    (locked : r.locked = true) (h : y.confirmed = true ∨ s.echoed c r y = true) (held : q.held = 0)
    (still : q.reopening = false) :
    let base := q.wOpen.getD 0 + q.boarded
    let weighed := if r.loadValid then (r.load + s.par 0x83 - 1) / s.par 0x83 else base
    ∃ p ∈ (s.uplinked c r).record c, p.phase = .ready ∧ p.closeDue = none ∧ p.boarded = q.boarded
      ∧ (s.uplinked c r).haul.loadOf c = some (min 250 (max weighed base))
      ∧ hasAttention (s.uplinked c r) .stopPhase = true := by
  intro base weighed
  have confirmed : y.confirmed = true ∨ (s.takeReport c r).confirms c q y = true :=
    h.imp_right fun e => by rw [State.takeReport_confirms s c r q exits, e, locked]; rfl
  obtain ⟨p, record, phase, due, boarded, load, raised⟩ := State.recordUplink_readies
    ((s.takeReport_record c c r).trans hq) hp hy ((s.takeReport_locked c r).trans locked) confirmed held still
  obtain ⟨a, alarmed⟩ := State.alarmed_keeps record (s.newAlarm c r)
  rw [State.weigh_of_report (s.takeReport_report c r), State.takeReport_par] at load
  rw [State.uplinked_of_locked locked, State.alarmed_haul]
  exact ⟨_, alarmed, phase, due, boarded, load, (State.alarmed_touches _ c _).2.hasAttention raised⟩

/-! ### A stop record in DWELL and TRIPPED -/

/-- In DWELL and TRIPPED the record is as its phase leaves it, with a new alarm (R119 to R124, R128). -/
theorem State.uplinked_record {s : State} {c : Car} {r : Report}
    (h : s.haul.line = .dwell ∨ s.haul.line = .tripped) {p : StopRecord}
    (hp : ((s.takeReport c r).recordUplink c).record c = some p) :
    (s.uplinked c r).record c = some { p with alarm := p.alarm || s.newAlarm c r } := by
  have line : ((s.takeReport c r).recordUplink c).haul.line = s.haul.line :=
    ((State.recordUplink_touches _ c).1 .line (by decide)).symm.trans (congrArg HaulState.line (s.takeReport_haul c r))
  rw [State.uplinked_of_stop h]
  exact State.alarmed_record (by rwa [line]) hp _

theorem State.uplinked_unchanged {s : State} {c : Car} {r : Report}
    (h : s.haul.line = .dwell ∨ s.haul.line = .tripped) {q : StopRecord} (hq : s.record c = some q)
    (same : (s.takeReport c r).recordUplink c = s.takeReport c r) :
    (s.uplinked c r).record c = some { q with alarm := q.alarm || s.newAlarm c r } :=
  State.uplinked_record h (by rw [same, State.takeReport_record, hq])

theorem State.uplinked_otherCar {s : State} {c : Car} {r : Report}
    (h : s.haul.line = .dwell ∨ s.haul.line = .tripped) :
    (s.uplinked c r).car (otherCar c) = s.car (otherCar c) := by
  rw [State.uplinked_of_stop h, State.alarmed_otherCar, State.recordUplink_otherCar, State.takeReport_otherCar]

/-- What the test of an ARRIVED record reads of a report just taken (R120). -/
theorem State.takeReport_sameBerthing (s : State) (c : Car) (r : Report) :
    SameBerthing (s.setCar c { s.car c with live := true, report := some r }) (s.takeReport c r) := by
  have kept := (s.takeReport_touches c r).1
  have stp (k : Car) : (s.takeReport c r).car k = (s.reported c r).car k := by
    rw [State.takeReport_eq]
    split
    · exact State.raise_car _ _ k
    · rfl
  have geo := s.takeReport_geo c r
  refine
    { now := (s.takeReport_now c r).trans (by cases c <;> rfl)
      params := (kept .params (by decide)).symm.trans (by cases c <;> rfl)
      active := (congrArg GeoState.active geo).trans (by cases c <;> rfl)
      posA := (congrArg GeoState.pA geo).trans (by cases c <;> rfl)
      referenced := (congrArg GeoState.referenced geo).trans (by cases c <;> rfl)
      inspection := (congrArg GeoState.inspection geo).trans (by cases c <;> rfl)
      live := fun k => ?_, report := fun k => ?_, admitted := fun k => ?_ } <;>
    rw [stp] <;> cases c <;> cases k <;> rfl

/-- An ARRIVED record is tested on the report just taken (R120). -/
theorem State.takeReport_arrived {s : State} {c : Car} {r : Report} {q : StopRecord} (hq : s.record c = some q)
    (hp : q.phase = .arrived) :
    ((s.takeReport c r).recordUplink c).record c
      = some (arrivedRecord (s.setCar c { s.car c with live := true, report := some r }) c
          (s.berthed c q.station && s.atRest && decide (s.haul.line = .dwell)) q) := by
  have record := (s.takeReport_record c c r).trans hq
  have same := s.takeReport_sameBerthing c r
  have berthed : (s.setCar c { s.car c with live := true, report := some r }).berthed c q.station
      = s.berthed c q.station := by cases c <;> rfl
  have conditions : (s.takeReport c r).berthedConditions c q
      = (s.berthed c q.station && s.atRest && decide (s.haul.line = .dwell)) := by
    rw [State.berthedConditions, same.berthed, berthed, State.atRest, State.takeReport_spd, State.takeReport_haul,
      State.takeReport_car]
    cases s.haul.line <;> simp [State.atRest]
  rw [State.recordUplink_of_arrived record hp, State.testArrived_record, record, Option.map_some, if_pos hp,
    conditions, same.arrivedRecord]

/-- A confirmed exit close enters BOARDING (R118, R121, R122). -/
theorem State.takeReport_alights {s : State} {c : Car} {r : Report} {q : StopRecord} {y : Close} {z : Station} {d : Side}
    (hq : s.record c = some q) (hp : q.phase = .alighting) (hy : q.close = some y) (exits : y.exitOnly = true)
    (hz : s.geo.active.station q.station = some z) (hd : z.separateExit = some d) (locked : r.sideLocked d = true)
    (echo : s.echoed c r y = true) :
    let v := (s.takeReport c r).recordUplink c
    let admitted := if q.station = 0 ∨ q.station = 3 then 0 else (s.car c).admitted
    let weighed := if r.loadValid then (r.load + s.par 0x83 - 1) / s.par 0x83 else admitted
    v.record c = some { q with
        phase := .boarding, wOpen := some weighed, quota := s.capacity - weighed
        phaseDue := some (s.now + sec z.board), closeDue := none, close := none }
      ∧ (v.car c).admitted = admitted ∧ hasAttention v .stopPhase = true := by
  intro v admitted weighed
  have confirmed : (s.takeReport c r).confirms c q y = true := by
    rw [State.takeReport_confirmsExit c r exits hz hd, echo, locked]; rfl
  have done : v = (s.takeReport c r).alightDone c q :=
    (State.recordUplink_of_alighting ((s.takeReport_record c c r).trans hq) hp hy).trans (if_pos confirmed)
  have capacity : (s.takeReport c r).capacity = s.capacity := s.takeReport_par c r 0x6A
  have counted : ((s.takeReport c r).car c).admitted = (s.car c).admitted := by rw [State.takeReport_car]
  have alighted := State.alightDone_of_record ((s.takeReport_record c c r).trans hq)
  simp only [State.weigh_of_report (s.takeReport_report c r), State.takeReport_par, capacity, State.takeReport_now,
    counted, State.takeReport_geo, hz, Option.map_some, Option.getD_some] at alighted
  rw [done]
  exact alighted

theorem Report.sideLocked_iff (r : Report) (d : Side) :
    r.sideLocked d = true ↔ (match d with | .left => r.left | .right => r.right) = .locked := beq_iff_eq

/-- A record in ALIGHTING whose exit close is not confirmed stays (R121). -/
theorem State.takeReport_alighting_waits {s : State} {c : Car} {r : Report} {q : StopRecord} {y : Close}
    (hq : s.record c = some q) (hp : q.phase = .alighting) (hy : q.close = some y)
    (h : (s.takeReport c r).confirms c q y = false) : (s.takeReport c r).recordUplink c = s.takeReport c r :=
  (State.recordUplink_of_alighting ((s.takeReport_record c c r).trans hq) hp hy).trans (if_neg (by simp [h]))

/-- What a record in CLOSING becomes of a report, by its close (R119, R123). -/
theorem State.takeReport_closing {s : State} {c : Car} {r : Report} {q : StopRecord} {y : Close}
    (hq : s.record c = some q) (hp : q.phase = .closing) (hy : q.close = some y) :
    let w := s.takeReport c r
    (y.confirmed = true → r.locked = false → (w.recordUplink c).record c = some
        { q with close := some { y with confirmed := false }, closeDue := some (s.now + sec (s.par 0x82)) })
      ∧ (y.confirmed = true → r.locked = true → q.held ≠ 0 ∨ q.reopening = true → w.recordUplink c = w)
      ∧ (y.confirmed = false → w.confirms c q y = true → q.held ≠ 0 ∨ q.reopening = true →
          (w.recordUplink c).record c = some { q with close := some { y with confirmed := true }, closeDue := none })
      ∧ (y.confirmed = false → w.confirms c q y = false → w.recordUplink c = w) := by
  intro w
  have record : w.record c = some q := (s.takeReport_record c c r).trans hq
  have locked : (w.car c).locked = r.locked := s.takeReport_locked c r
  rw [State.recordUplink_of_closing record hp hy, locked]
  refine ⟨fun done open_ => ?_, fun done shut waits => ?_, fun waiting confirmed waits => ?_,
    fun waiting unconfirmed => ?_⟩
  · rw [if_pos done, if_neg (by simp [open_]), State.modRecord_record, record, State.takeReport_now,
      State.takeReport_par, Option.map_some]
  · rw [if_pos done, if_pos shut, State.tryReady_of_waiting record waits]
  · have marked := w.modRecord_record c fun q => { q with close := some { y with confirmed := true }, closeDue := none }
    rw [record, Option.map_some] at marked
    rw [if_neg (by simp [waiting]), if_pos confirmed, State.tryReady_of_waiting marked waits]
    exact marked
  · rw [if_neg (by simp [waiting]), if_neg (by simp [unconfirmed])]

/-- A READY record returns to CLOSING where a side is not LOCKED (R124). -/
theorem State.takeReport_ready {s : State} {c : Car} {r : Report} {q : StopRecord}
    (h : s.haul.line = .dwell ∨ s.haul.line = .tripped) (hq : s.record c = some q) (hp : q.phase = .ready) :
    let w := s.takeReport c r
    (r.locked = true → w.recordUplink c = w)
      ∧ (r.locked = false → (w.recordUplink c).record c = some
          { q with
            phase := .closing, phaseDue := none, reopening := false, close := some ⟨false, 0, false⟩
            closeDue := some (s.now + sec (s.par 0x82)) }
        ∧ hasAttention (w.recordUplink c) .stopPhase = true) := by
  intro w
  have record : w.record c = some q := (s.takeReport_record c c r).trans hq
  have locked : (w.car c).locked = r.locked := s.takeReport_locked c r
  have line : (w.haul.line == .dwell || w.haul.line == .tripped) = true := by
    rw [State.takeReport_haul]
    rcases h with h | h <;> rw [h] <;> rfl
  rw [State.recordUplink_of_ready record hp, locked, line]
  refine ⟨fun shut => if_neg (by simp [shut]), fun open_ => ?_⟩
  rw [if_pos (by simp [open_])]
  have closing := State.enterClosing_of_record record
  rwa [State.takeReport_now, State.takeReport_par] at closing

/-- Settles O55: the judgement of the frame, and then each stage of a valid one: the link, the line, the stop record by its
phase and its close, and the alarm. -/
theorem uplinkIsJudgedAndActedOn : Obligations.UplinkIsJudgedAndActedOn := by
  intro c ok id echo doors flags l0 l1 k0 k1 s frame x valid report locked oldAlarm
  have judged : reportOf c x.kept s.now ok frame = if valid = true then some report else none :=
    reportOf_frame c x.kept s.now ok id echo doors flags l0 l1 k0 k1
  refine ⟨fun other h => execUplink_of_invalid (reportOf_of_length h c _ _ ok), fun h => ?_, fun h => ?_⟩
  · exact execUplink_of_invalid (judged.trans (if_neg (by simp [h])))
  · have row : exec (.uplink c ok frame) s = .next (s.uplinked c report) :=
      execUplink_of_valid (judged.trans (if_pos h))
    obtain ⟨live, due, rep⟩ := s.uplinked_link c report
    have now : (s.uplinked c report).now = s.now :=
      ((s.uplinked_touches c report).1 .time (by decide)).symm.trans (s.takeReport_now c report)
    refine ⟨_, row, s.uplinked_boardingInv c report, now, live, due, rep, State.uplinked_raises, fun open_ => ⟨?_, ?_⟩,
      fun shut => ?_, ?_, fun stop => ⟨?_, State.uplinked_otherCar stop, fun q hq => ?_⟩, fun new old => ?_⟩
    · exact State.uplinked_trips open_
    · exact fun r starting hr => ⟨State.uplinked_halts open_ starting hr, State.uplinked_dwells open_ starting hr⟩
    · rw [State.uplinked_of_locked shut]
      exact s.reportedUplink_line c report
    · intro q y hq hp hy exits shut confirmed held still base weighed
      obtain ⟨p, record, phase, done, boarded, load, raised⟩ :=
        State.uplinked_readies hq hp hy exits shut (confirmed.imp_right decide_eq_true) held still
      exact ⟨p, record, phase, done, boarded, by cases c <;> exact load, raised⟩
    · rw [State.uplinked_of_stop stop]
      exact s.reportedUplink_line c report
    · intro alarmed u echoed closeBy weighed
      have raised {a : Attention}
          (e : hasAttention ((s.takeReport c report).recordUplink c) a = true) :
          hasAttention (s.uplinked c report) a = true := by
        rw [State.uplinked_of_stop stop]
        exact (State.alarmed_touches _ c _).2.hasAttention e
      have stays (e : (s.takeReport c report).recordUplink c = s.takeReport c report) : alarmed q :=
        State.uplinked_unchanged stop hq e
      refine ⟨fun hp => ?arrived, fun y d z hp hy exits hz hd shut echo => ?alighted, fun y hp hy silent => ?silent,
        fun y d z hp hy exits hz hd open_ => ?exitOpen, fun hp => ?waiting, fun y hp hy done open_ => ?withdrawn,
        fun y hp hy done shut waits => ?held, fun y hp hy waiting exits shut echo waits => ?confirmed,
        fun y hp hy waiting h => ?unconfirmed, fun hp shut => ?ready, fun hp open_ => ?returned⟩
      case arrived => exact State.uplinked_record stop (State.takeReport_arrived hq hp)
      case alighted =>
        obtain ⟨record, counted, phase⟩ := State.takeReport_alights hq hp hy exits hz hd
          ((report.sideLocked_iff d).2 shut) echo
        refine ⟨State.uplinked_record stop record, ?_, raised phase⟩
        rw [State.uplinked_of_stop stop, (State.alarmed_touches _ c _).1.admitted (by decide)]
        exact counted
      case silent => exact stays (State.takeReport_alighting_waits hq hp hy (State.takeReport_unconfirmed q silent))
      case exitOpen =>
        have unlocked : report.sideLocked d = false := by
          rw [Bool.eq_false_iff]
          exact fun e => open_ ((report.sideLocked_iff d).1 e)
        refine stays (State.takeReport_alighting_waits hq hp hy ?_)
        rw [State.takeReport_confirmsExit c report exits hz hd, unlocked, Bool.and_false]
      case waiting => exact stays (State.recordUplink_of_waiting ((s.takeReport_record c c report).trans hq) hp)
      case withdrawn =>
        obtain ⟨withdrawn, -⟩ := State.takeReport_closing hq hp hy
        exact State.uplinked_record stop (withdrawn done open_)
      case held =>
        obtain ⟨-, held, -⟩ := State.takeReport_closing hq hp hy
        exact stays (held done shut waits)
      case confirmed =>
        obtain ⟨-, -, confirmed, -⟩ := State.takeReport_closing hq hp hy
        refine State.uplinked_record stop (confirmed waiting ?_ waits)
        rw [State.takeReport_confirms s c report q exits, Bool.and_eq_true]
        exact ⟨echo, shut⟩
      case unconfirmed =>
        obtain ⟨-, -, -, unconfirmed⟩ := State.takeReport_closing hq hp hy
        refine stays (unconfirmed waiting ?_)
        rcases h with ⟨open_, exits⟩ | silent
        · rw [State.takeReport_confirms s c report q exits, show report.locked = false from open_, Bool.and_false]
        · exact State.takeReport_unconfirmed q silent
      case ready =>
        obtain ⟨ready, -⟩ := State.takeReport_ready stop hq hp
        exact stays (ready shut)
      case returned =>
        obtain ⟨-, returned⟩ := State.takeReport_ready stop hq hp
        obtain ⟨record, phase⟩ := returned open_
        exact ⟨State.uplinked_record stop record, raised phase⟩
    · have alarm : s.newAlarm c report = true := by
        rw [State.newAlarm, Bool.and_eq_true]
        exact ⟨new, by simpa using old⟩
      rw [State.uplinked, alarm]
      exact State.alarmed_recorded _ c

end Sys2Proof.Machine
end

-- ==== The integer square root and the bounds of the curves ====
section
/-! isqrt rounds down, and the values that the braking curves and the stop envelope are computed from stay within the bounds
of R84: the limits of the active segments and of the restrictions, the deceleration of the run, and the distances. -/

namespace Sys2Proof.Machine

/-! ### The integer square root -/

/-- The bits from 2^k down settle the root that lies from acc to below acc + 2^k (R84). -/
theorem isqrtFrom_bounds (n k acc : Nat) (low : acc * acc ≤ n) (high : n < (acc + 2 ^ k) * (acc + 2 ^ k)) :
    isqrtFrom n k acc * isqrtFrom n k acc ≤ n ∧ n < (isqrtFrom n k acc + 1) * (isqrtFrom n k acc + 1) := by
  induction k generalizing acc with
  | zero => exact ⟨low, high⟩
  | succ k ih =>
    have half : acc + 2 ^ (k + 1) = acc + 2 ^ k + 2 ^ k := by rw [Nat.pow_succ]; omega
    rw [half] at high
    simp only [isqrtFrom]
    by_cases above : (acc + 2 ^ k) * (acc + 2 ^ k) ≤ n
    · rw [if_pos above]
      exact ih _ above high
    · rw [if_neg above]
      exact ih _ low (Nat.not_le.1 above)

theorem isqrt_bounds {n : Nat} (h : n < 2 ^ 40) : isqrt n * isqrt n ≤ n ∧ n < (isqrt n + 1) * (isqrt n + 1) :=
  isqrtFrom_bounds n 20 0 (Nat.zero_le n) (by omega)

/-! ### Parameters in range -/

/-- A parameter of a well-formed store lies in its range (R181). -/
theorem paramsWf_range {ps : ParamStore} (h : paramsWf ps = true) {row : ParamRow} (hr : row ∈ paramTable) :
    row.min ≤ paramGet ps row.number ∧ paramGet ps row.number ≤ row.max := by
  simp only [paramsWf, Bool.and_eq_true, List.all_eq_true, decide_eq_true_eq] at h
  obtain ⟨⟨-, range⟩, -⟩ := h
  exact range row hr

theorem paramsWf_par_le {s : State} (h : paramsWf s.params = true) {row : ParamRow} (hr : row ∈ paramTable) {n : Nat}
    (hn : row.max ≤ n) : s.par row.number ≤ n := by
  obtain ⟨-, high⟩ := paramsWf_range h hr
  rw [State.par]
  omega

/-! ### The limits of the restrictions -/

/-- Every restriction's limit is at most 12,000 mm/s (R40, R42, R55). -/
def limitsHeld (s : State) : Prop := ∀ x, some x ∈ s.tsr.table → x.limit ≤ 12000

/-- The limits are held, and the parameters that MON writes its entries from are in range (R55, R181). -/
def limitsBounded (s : State) : Prop := paramsWf s.params = true ∧ limitsHeld s

theorem limitsHeld.of_keptBut {parts : List Part} {s t : State} (h : limitsHeld s) (k : keptBut parts s t)
    (hp : Part.restrictions ∉ parts) : limitsHeld t := by
  have table : s.tsr.table = t.tsr.table := k .restrictions hp
  unfold limitsHeld
  rwa [← table]

theorem limitsBounded.of_touches {parts : List Part} {s t : State} (h : limitsBounded s) (k : touches parts s t)
    (hp : Part.params ∉ parts ∧ Part.restrictions ∉ parts) : limitsBounded t := by
  have params : s.params = t.params := k.1 .params hp.1
  exact ⟨params ▸ h.1, h.2.of_keptBut k.1 hp.2⟩

/-- An entry is written with a limit within the bound, or freed. -/
theorem limitsBounded.setEntry {s : State} (h : limitsBounded s) (n : Nat) {x : Option Restriction}
    (hx : ∀ r, x = some r → r.limit ≤ 12000) : limitsBounded (s.setEntry n x) := by
  refine ⟨h.1, fun r hr => ?_⟩
  rcases List.mem_or_eq_of_mem_set hr with hr | hr
  · exact h.2 r hr
  · exact hx r hr.symm

theorem limitsBounded.freeEntry {s : State} (h : limitsBounded s) (n : Nat) : limitsBounded (s.setEntry n none) :=
  h.setEntry n nofun

/-- A limit that is raised to the creep speed stays within the bound (R41, R42, R55). -/
theorem State.raisedLimit_le {s : State} (h : paramsWf s.params = true) {n : Nat} (hn : n ≤ 12000) :
    s.raisedLimit n ≤ 12000 := by
  have creep : s.par 0x65 ≤ 12000 :=
    paramsWf_par_le h (row := ⟨0x65, false, 300, 500, 1000⟩) (by decide) (by decide)
  exact Nat.max_le.2 ⟨hn, creep⟩

theorem State.monEntry_limit_le {s : State} (h : paramsWf s.params = true) (lo hi : Nat) {n : Nat} (hn : n ≤ 12000) :
    (s.monEntry lo hi n).limit ≤ 12000 := State.raisedLimit_le h hn

/-- A table changed entry by entry, no limit raised. -/
theorem limitsHeld_map {t : List (Option Restriction)} (h : ∀ x, some x ∈ t → x.limit ≤ 12000)
    {f : Option Restriction → Option Restriction}
    (hf : ∀ o x, f o = some x → ∃ y, o = some y ∧ x.limit = y.limit) :
    ∀ x, some x ∈ t.map f → x.limit ≤ 12000 := by
  intro x hx
  obtain ⟨o, ho, same⟩ := List.mem_map.1 hx
  obtain ⟨y, rfl, limit⟩ := hf o x same
  rw [limit]
  exact h y ho

/-! #### MON's slots -/

theorem limitsBounded.writeWindSlot {s : State} (h : limitsBounded s) (k : Nat) : limitsBounded (s.writeWindSlot k) := by
  have cap : s.par 0x30 ≤ 12000 :=
    paramsWf_par_le h.1 (row := ⟨0x30, false, 300, 5000, 12000⟩) (by decide) (by decide)
  unfold State.writeWindSlot
  split
  · refine h.setEntry k fun r hr => ?_
    obtain rfl := Option.some.inj hr
    exact State.monEntry_limit_le h.1 _ _ cap
  · exact h.freeEntry k

theorem limitsBounded.writeWind {s : State} (h : limitsBounded s) : limitsBounded s.writeWind := by
  unfold State.writeWind
  split
  · exact List.foldlRecOn _ _ h fun _ hs k _ => hs.writeWindSlot k
  · exact h

theorem limitsBounded.freeWind {s : State} (h : limitsBounded s) : limitsBounded s.freeWind :=
  List.foldlRecOn _ _ h fun _ hs k _ => hs.freeEntry k

theorem limitsBounded.writeFrost {s : State} (h : limitsBounded s) : limitsBounded s.writeFrost := by
  have cap : s.par 0x31 ≤ 12000 :=
    paramsWf_par_le h.1 (row := ⟨0x31, false, 300, 6000, 12000⟩) (by decide) (by decide)
  unfold State.writeFrost
  split
  · refine h.setEntry 5 fun r hr => ?_
    obtain rfl := Option.some.inj hr
    exact State.monEntry_limit_le h.1 _ _ cap
  · exact h

theorem limitsBounded.rewriteSlots {s : State} (h : limitsBounded s) : limitsBounded s.rewriteSlots := by
  have wind : limitsBounded (if s.mon.w1.raised then s.writeWind else s.freeWind) := by
    split
    exacts [h.writeWind, h.freeWind]
  unfold State.rewriteSlots
  generalize (if s.mon.w1.raised then s.writeWind else s.freeWind) = u at wind
  dsimp only
  split
  · exact wind.writeFrost
  · exact wind.freeEntry 5

theorem limitsBounded.raiseEffect {s : State} (h : limitsBounded s) (k : CondId) : limitsBounded (s.raiseEffect k) := by
  cases k with
  | w1 => exact h.writeWind
  | frost => exact h.writeFrost
  | slack => exact h.of_touches (s.takeCause_touches .slackRope) (by decide)
  | overtension => exact h.of_touches (s.haltEvent_touches .overtension) (by decide)
  | w2 => exact h
  | m1 => exact h
  | m2 => exact h

theorem limitsBounded.clearEffect {s : State} (h : limitsBounded s) (k : CondId) : limitsBounded (s.clearEffect k) := by
  cases k with
  | w1 => exact h.freeWind
  | frost => exact h.freeEntry 5
  | slack => exact h
  | overtension => exact h
  | w2 => exact h
  | m1 => exact h
  | m2 => exact h

theorem limitsBounded.setCond {s : State} (h : limitsBounded s) (k : CondId) (c : Cond) : limitsBounded (s.setCond k c) :=
  h.of_touches (s.setCond_touches k c) (by decide)

theorem limitsBounded.raiseCond {s : State} (h : limitsBounded s) (k : CondId) : limitsBounded (s.raiseCond k) :=
  limitsBounded.raiseEffect (s := (s.setCond k ⟨true, 0, 0⟩).raise .monitor) (h.setCond k _) k

theorem limitsBounded.clearCond {s : State} (h : limitsBounded s) (k : CondId) : limitsBounded (s.clearCond k) :=
  limitsBounded.clearEffect (s := (s.setCond k ⟨false, 0, 0⟩).raise .monitor) (h.setCond k _) k

theorem limitsBounded.evalCond {s : State} (h : limitsBounded s) (v : Int) (k : CondId) :
    limitsBounded (s.evalCond v k) := by
  unfold State.evalCond
  dsimp only
  split
  · split
    · split
      exacts [h.clearCond k, h.setCond k _]
    · exact h.setCond k _
  · split
    · split
      exacts [h.raiseCond k, h.setCond k _]
    · exact h.setCond k _

theorem limitsBounded.forceCond {s : State} (h : limitsBounded s) (k : CondId) : limitsBounded (s.forceCond k) := by
  unfold State.forceCond
  dsimp only
  split
  · exact h.setCond .slack _
  · split
    exacts [h.setCond k _, h.raiseCond k]

theorem limitsBounded.sampleChannel {s : State} (h : limitsBounded s) (ch : MonChannel) (r : Nat) :
    limitsBounded (s.sampleChannel ch r) := by
  have channel (c : MonChannelState) (b : Bool) :
      limitsBounded (if b then s.setMonChannel ch c else (s.setMonChannel ch c).raise .monitor)
        ∧ limitsBounded (if b then (s.setMonChannel ch c).raise .monitor else s.setMonChannel ch c) := by
    have set := h.of_touches (s.setMonChannel_touches ch c) (by decide)
    have raised := set.of_touches (State.raise_touches _ .monitor) (by decide)
    cases b
    exacts [⟨raised, set⟩, ⟨set, raised⟩]
  unfold State.sampleChannel
  dsimp only
  split
  · exact List.foldlRecOn _ _ (channel _ _).1 fun _ hs k _ => hs.forceCond k
  · exact List.foldlRecOn _ _ (channel _ _).2 fun _ hs k _ => hs.evalCond _ k

/-! #### The boundary passes -/

theorem State.pendingPass_limitsHeld {s : State} (h : limitsHeld s) : limitsHeld s.pendingPass :=
  limitsHeld_map h fun o x hx => by
    obtain ⟨y, rfl, rfl⟩ := Option.map_eq_some_iff.1 hx
    exact ⟨y, rfl, rfl⟩

theorem State.expire_limitsHeld {s : State} (h : limitsHeld s) (n : Nat) : limitsHeld (s.expire n) := by
  have freed : limitsHeld (s.setEntry n none) := fun x hx => by
    rcases List.mem_or_eq_of_mem_set hx with hx | hx
    exacts [h x hx, by cases hx]
  unfold State.expire
  split
  · split
    · unfold State.appendEnded
      split <;> exact freed
    · exact h
  · exact h

theorem State.boundaryPasses_limitsHeld {s : State} (h : limitsHeld s) : limitsHeld s.boundaryPasses :=
  List.foldlRecOn _ _ (State.pendingPass_limitsHeld h) fun _ hs n _ => State.expire_limitsHeld hs n

/-! #### The commands on the table -/

theorem State.respan_limitsHeld {s : State} (h : limitsHeld s) (len : Nat) : limitsHeld (s.respan len) :=
  limitsHeld_map h fun o x hx => by
    unfold respanEntry at hx
    split at hx
    · split at hx
      · cases hx; exact ⟨_, rfl, rfl⟩
      · split at hx
        · cases hx; exact ⟨_, rfl, rfl⟩
        · cases hx
    · cases hx

/-- A command answers its first failing check, or takes effect with none failing. -/
theorem State.answerBy_cases {P : State → Prop} {s : State} {code : Byte} {checks : List Check} {passed : State}
    (refused : ∀ rc d, P (s.reply code rc d)) (effect : refusedBy checks = none → P passed) :
    P (s.answerBy code checks passed) := by
  cases h : refusedBy checks with
  | none => rw [State.answerBy_of_passed h]; exact effect h
  | some x => obtain ⟨rc, d⟩ := x; rw [State.answerBy_of_refused h]; exact refused rc d

theorem addRestriction_limitsHeld {s : State} (h : limitsBounded s) (a : AddRestrictionArgs) :
    limitsHeld (addRestriction a s) := by
  rw [addRestriction_eq]
  refine State.answerBy_cases (fun _ _ => h.2) fun passed => ?_
  have limit : a.limit.toNat ≤ 12000 := by
    have range := check_passed passed (List.mem_cons_of_mem _ List.mem_cons_self)
    simp only [decide_eq_false_iff_not, not_or] at range
    omega
  split
  · refine (h.setEntry _ fun r hr => ?_).2
    obtain rfl := Option.some.inj hr
    exact State.raisedLimit_le h.1 limit
  · exact h.2

theorem amendRestriction_limitsHeld {s : State} (h : limitsBounded s) (a : AmendRestrictionArgs) :
    limitsHeld (amendRestriction a s) := by
  rw [amendRestriction_eq]
  refine State.answerBy_cases (fun _ _ => h.2) fun passed => ?_
  have limit : a.limit.toNat ≤ 12000 := by
    have range := check_passed passed List.mem_cons_self
    simp only [decide_eq_false_iff_not, not_or] at range
    omega
  split
  · refine (h.setEntry _ fun r hr => ?_).2
    obtain rfl := Option.some.inj hr
    exact State.raisedLimit_le h.1 limit
  · exact h.2

theorem retireRestriction_limitsHeld {s : State} (h : limitsBounded s) (x : Byte) :
    limitsHeld (retireRestriction x s) := by
  unfold retireRestriction
  dsimp only
  split
  · exact h.2
  · split
    · exact h.2
    · split
      · exact h.2
      · exact (h.freeEntry x.toNat).2

theorem setClock_limitsHeld {s : State} (h : limitsHeld s) (a : ClockArgs) : limitsHeld (setClock a s) := by
  unfold setClock
  split
  · exact h
  · refine limitsHeld.of_keptBut ?_ (State.reply_touches _ _ _ _).1 (by decide)
    exact State.boundaryPasses_limitsHeld h

theorem execMinuteBoundary_limitsHeld {s t : State} (h : limitsHeld s) (e : execMinuteBoundary s = .next t) :
    limitsHeld t := by
  cases e
  unfold onExpiry
  split
  · dsimp only
    split
    · exact h
    · refine State.boundaryPasses_limitsHeld ?_
      split
      exacts [h, h]
  · exact h

theorem commitGeometry_limitsHeld {s : State} (h : limitsBounded s) : limitsHeld (commitGeometry s) := by
  unfold commitGeometry
  split
  · exact h.2
  · split
    · exact h.2
    · dsimp only
      have spanned : limitsBounded (((s.setActive s.geo.staged.committed).unreference s.geo.staged.committed.len).respan
          s.geo.staged.committed.len) :=
        ⟨h.1, State.respan_limitsHeld
          (s := (s.setActive s.geo.staged.committed).unreference s.geo.staged.committed.len) h.2 _⟩
      exact (spanned.rewriteSlots.of_touches (State.deriveBoarding_touches _) (by decide)).2

/-- A command on its fields, or its wrong form: the table's property passes through the form. -/
theorem withForm_keeps {α : Type} {P : State → Prop} {code : Byte} {p : Form α} {s t : State} {f : α → State}
    (e : withForm code p s f = .next t) (wrong : P (s.reply code .badParameter [])) (fields : ∀ x, P (f x)) : P t := by
  cases p with
  | wrongLength => cases e; exact wrong
  | fields x => cases e; exact fields x

/-- After power-on no entry, no run and no segment stands (R187). -/
theorem State.powerOn_clear (x : Levels) :
    (State.powerOn x).tsr.table = List.replicate 32 none ∧ (State.powerOn x).haul.run = none
      ∧ (State.powerOn x).geo.active.segments = List.replicate 48 none := by
  unfold State.powerOn
  dsimp only
  split <;> exact ⟨rfl, rfl, rfl⟩

theorem not_mem_replicate_none {α : Type} {n : Nat} {x : α} (h : some x ∈ List.replicate n none) : False := by
  cases List.eq_of_mem_replicate h

/-- Every command keeps the limits of the restrictions at most 12,000 mm/s (R40, R42, R55). -/
theorem exec_limitsHeld {s t : State} (h : limitsBounded s) (i : Instr) (e : exec i s = .next t) : limitsHeld t := by
  cases i with
  | setClock p => exact withForm_keeps e h.2 fun a => setClock_limitsHeld h.2 a
  | commitGeometry p => exact withForm_keeps e h.2 fun _ => commitGeometry_limitsHeld h
  | addRestriction p => exact withForm_keeps e h.2 fun a => addRestriction_limitsHeld h a
  | amendRestriction p => exact withForm_keeps e h.2 fun a => amendRestriction_limitsHeld h a
  | retireRestriction p => exact withForm_keeps e h.2 fun x => retireRestriction_limitsHeld h x
  | minuteBoundary => exact execMinuteBoundary_limitsHeld h.2 e
  | monitorSample ch r =>
    cases e
    exact ((limitsBounded.sampleChannel (s := s.advance _) h ch r.toNat).of_touches (State.deriveBoarding_touches _)
      (by decide)).2
  | powerOnReset x =>
    cases e
    obtain ⟨table, -, -⟩ := State.powerOn_clear x
    exact fun y hy => (not_mem_replicate_none (table ▸ hy)).elim
  | _ => exact h.2.of_keptBut (exec_keptBut e (by intros; exact Instr.noConfusion)) (by simp only [partsOf]; decide)

/-! ### The limits of the segments -/

/-- Every active segment's limit is at most 12,000 mm/s (R5, R84). -/
def segmentsHeld (s : State) : Prop := ∀ y, some y ∈ s.geo.active.segments → y.limit ≤ 12000

theorem segmentsHeld.of_keptBut {parts : List Part} {s t : State} (h : segmentsHeld s) (k : keptBut parts s t)
    (hp : Part.active ∉ parts) : segmentsHeld t := by
  have active : s.geo.active = t.geo.active := k .active hp
  unfold segmentsHeld
  rwa [← active]

/-- A copy that fails none of the seven checks has its fields in range (R5). -/
theorem checkRanges_of_passed {d : Nat} {g : Geometry} (h : failingCheck d g = none) : checkRanges g = true := by
  by_contra fails
  unfold failingCheck at h
  rw [Bool.eq_false_of_not_eq_true fails] at h
  split_ifs at h
  contradiction

theorem segment_limit_of_checkRanges {g : Geometry} (h : checkRanges g = true) {y : Segment} (hy : some y ∈ g.segments) :
    y.limit ≤ 12000 := by
  have present : y ∈ g.present := List.mem_filterMap.2 ⟨some y, hy, rfl⟩
  simp only [checkRanges, Bool.and_eq_true, List.all_eq_true] at h
  obtain ⟨-, segments⟩ := h
  have range := segments y present
  simp only [segmentInRange, Bool.and_eq_true, decide_eq_true_eq] at range
  obtain ⟨-, -, limit⟩ := range
  exact limit

theorem commitGeometry_segmentsHeld {s : State} (h : segmentsHeld s) : segmentsHeld (commitGeometry s) := by
  unfold commitGeometry
  split
  · exact h
  · split
    · exact h
    · rename_i passed
      dsimp only
      have set : segmentsHeld (s.setActive s.geo.staged.committed) :=
        fun y hy => segment_limit_of_checkRanges (checkRanges_of_passed passed) hy
      have later := (((State.unreference_touches (s.setActive s.geo.staged.committed) s.geo.staged.committed.len).trans
        (State.respan_touches _ s.geo.staged.committed.len)).trans (State.rewriteSlots_touches _)).trans
          (State.deriveBoarding_touches _)
      have kept := set.of_keptBut later.1 (by decide)
      exact kept

/-- Every command keeps the limits of the active segments at most 12,000 mm/s (R5, R6). -/
theorem exec_segmentsHeld {s t : State} (h : segmentsHeld s) (i : Instr) (e : exec i s = .next t) : segmentsHeld t := by
  cases i with
  | commitGeometry p => exact withForm_keeps e h fun _ => commitGeometry_segmentsHeld h
  | powerOnReset x =>
    cases e
    obtain ⟨-, -, segments⟩ := State.powerOn_clear x
    exact fun y hy => (not_mem_replicate_none (segments ▸ hy)).elim
  | _ => exact h.of_keptBut (exec_keptBut e (by intros; exact Instr.noConfusion)) (by simp only [partsOf]; decide)

/-! ### The deceleration of the run -/

/-- The deceleration of the run, where there is one, is at most 1,200 mm/s² (R72, R84). -/
def runHeld (s : State) : Prop := ∀ r, s.haul.run = some r → r.aEff ≤ 1200

theorem runHeld.of_keptBut {parts : List Part} {s t : State} (h : runHeld s) (k : keptBut parts s t)
    (hp : Part.run ∉ parts) : runHeld t := by
  have run : s.haul.run = t.haul.run := k .run hp
  unfold runHeld
  rwa [← run]

theorem runHeld.of_none {s : State} (h : s.haul.run = none) : runHeld s := fun r hr => by rw [h] at hr; cases hr

theorem runHeld.deriveBoarding {s : State} (h : runHeld s) : runHeld s.deriveBoarding :=
  h.of_keptBut s.deriveBoarding_touches.1 (by decide)

theorem runHeld.enterHalted {s : State} (h : runHeld s) (c : HaltCause) : runHeld (s.enterHalted c) :=
  h.of_keptBut (s.enterHalted_touches c).1 (by decide)

theorem runHeld.takeCause {s : State} (h : runHeld s) (c : TripCause) : runHeld (s.takeCause c) :=
  h.of_keptBut (s.takeCause_touches c).1 (by decide)

theorem runHeld.testBoth {s : State} (h : runHeld s) : runHeld ((s.testBerthed .a).testBerthed .b) :=
  h.of_keptBut (s.testBoth_touches).1 (by decide)

/-- The entries to DWELL and PARKED discard the run record (R66, R67, R78). -/
theorem State.dwellSpeeds_runHeld (s : State) : runHeld s.dwellSpeeds := runHeld.of_none rfl

theorem State.enterDwell_runHeld (s : State) (k : Nat) : runHeld (s.enterDwell k) :=
  (State.dwellSpeeds_runHeld _).of_keptBut (State.createRecords_touches _ k).1 (by decide)

theorem State.returnToDwell_runHeld (s : State) (h : HaltCause) : runHeld (s.returnToDwell h) := by
  have stands : runHeld (((s.setLine .dwell).dwellSpeeds).setHalt h) := runHeld.of_none rfl
  exact stands.of_keptBut ((State.moveAlarm_touches _ .a).trans (State.moveAlarm_touches _ .b)).1 (by decide)

theorem State.enterParked_runHeld (s : State) : runHeld s.enterParked := State.dwellSpeeds_runHeld _

theorem runHeld.endStart {s : State} (h : runHeld s) (a b : HaltCause) : runHeld (s.endStart a b) := by
  unfold State.endStart
  split
  · split
    exacts [s.returnToDwell_runHeld a, h.enterHalted b]
  · exact h.enterHalted b

theorem runHeld.comeToRest {s : State} (h : runHeld s) : runHeld s.comeToRest := by
  unfold State.comeToRest
  split
  exacts [s.enterDwell_runHeld _, s.enterDwell_runHeld _, s.enterDwell_runHeld _, h.enterHalted _, h.enterHalted _, h]

theorem State.keepRecords_runHeld (s : State) : runHeld s.keepRecords := by
  have later := ((State.setSuspended_touches (s.setLine .dwell).dwellSpeeds false).trans
    (State.moveAlarm_touches _ .a)).trans (State.moveAlarm_touches _ .b)
  exact ((State.dwellSpeeds_runHeld _).of_keptBut later.1 (by decide)).testBoth

theorem runHeld.leaveTripped {s : State} (h : runHeld s) : runHeld s.leaveTripped := by
  unfold State.leaveTripped
  dsimp only
  split
  · split
    · exact State.keepRecords_runHeld _
    · exact (State.dwellSpeeds_runHeld _).of_keptBut
        ((State.discardRecords_touches _).trans (State.createRecords_touches _ _)).1 (by decide)
  · exact (h.of_keptBut s.clearLatch_touches.1 (by decide)).enterHalted .offBerth

/-! #### The commands on the run -/

theorem unpark_runHeld {s : State} (h : runHeld s) : runHeld (unpark s) := by
  rw [unpark_eq]
  refine State.answerBy_cases (fun _ _ => h) fun _ => ?_
  refine runHeld.deriveBoarding (s := s.unparked) ?_
  unfold State.unparked
  split
  exacts [s.enterDwell_runHeld _, h.enterHalted _]

theorem park_runHeld {s : State} (h : runHeld s) : runHeld (park s) := by
  rw [park_eq]
  exact State.answerBy_cases (fun _ _ => h) fun _ => s.enterParked_runHeld.deriveBoarding

theorem resetTrip_runHeld {s : State} (h : runHeld s) : runHeld (resetTrip s) := by
  unfold resetTrip
  split
  · split
    exacts [h, h.leaveTripped.deriveBoarding]
  · split
    exacts [h, h]
  all_goals exact h

theorem softReset_runHeld {s : State} (h : runHeld s) : runHeld (softReset s) := by
  have done : runHeld s.softResetDone := runHeld.of_none (congrArg HaulState.run s.softResetDone_haul)
  unfold softReset
  split
  · exact done
  · split
    exacts [done, h]
  · split
    exacts [done, h]
  all_goals exact h

theorem runHeld.onExpiry {s : State} (h : runHeld s) (due : Option Nat) {f : State → State}
    (effect : ∀ u, runHeld u → runHeld (f u)) : runHeld (onExpiry due s f) := by
  cases due with
  | none => exact h
  | some t => exact effect (s.advance t) h

theorem runHeld.lineUplink {s : State} (h : runHeld s) (c : Car) : runHeld (s.lineUplink c) := by
  unfold State.lineUplink
  split
  · exact h
  · split
    · exact h.endStart _ _
    · exact h.takeCause _
    · exact h.takeCause _
    · split
      exacts [h, h.takeCause _]
    all_goals exact h

theorem runHeld.actUplink {s : State} (h : runHeld s) (c : Car) (r : Report) : runHeld (s.actUplink c r) := by
  have reported : runHeld (s.takeReport c r) := h.of_keptBut (s.takeReport_touches c r).1 (by decide)
  have acted : runHeld (((s.takeReport c r).lineUplink c).recordUplink c) :=
    (reported.lineUplink c).of_keptBut (State.recordUplink_touches _ c).1 (by decide)
  unfold State.actUplink
  dsimp only
  split
  · exact acted.of_keptBut (State.takeAlarm_touches _ c).1 (by decide)
  · exact acted

/-- A new run decelerates at a_nom less the load's penalty, but not below a_min (R72). -/
theorem State.newRun_aEff_le {s : State} (h : paramsWf s.params = true) (target speed : Nat) (origin : Origin) :
    (s.newRun target speed origin).aEff ≤ 1200 := by
  have nominal : s.par 0x60 ≤ 1200 :=
    paramsWf_par_le h (row := ⟨0x60, true, 200, 800, 1200⟩) (by decide) (by decide)
  have least : s.par 0x61 ≤ 1200 :=
    paramsWf_par_le h (row := ⟨0x61, true, 100, 300, 1200⟩) (by decide) (by decide)
  exact Nat.max_le.2 ⟨least, (Nat.sub_le _ _).trans nominal⟩

theorem State.enterStarting_runHeld {s : State} {r : RunRecord} (h : r.aEff ≤ 1200) : runHeld (s.enterStarting r) := by
  have started : runHeld ((s.started r).firstSpeeds) := fun q hq => by
    obtain rfl := Option.some.inj ((s.started_run r).symm.trans hq)
    exact h
  rw [State.enterStarting_eq]
  exact (started.of_keptBut (State.compareRollback_touches _).1 (by decide)).deriveBoarding

theorem startRun_runHeld {s : State} (hp : paramsWf s.params = true) (h : runHeld s) (a : RunArgs) :
    runHeld (startRun a s) := by
  rw [startRun_eq]
  exact State.answerBy_cases (fun _ _ => h) fun _ => State.enterStarting_runHeld (s.newRun_aEff_le hp _ _ _)

theorem resume_runHeld {s : State} (hp : paramsWf s.params = true) (h : runHeld s) : runHeld (resume s) := by
  rw [resume_eq]
  refine State.answerBy_cases (fun _ _ => h) fun _ => ?_
  split
  exacts [State.enterStarting_runHeld (s.newRun_aEff_le hp _ _ _), h]

/-- Every command keeps the deceleration of the run at most 1,200 mm/s² (R70, R72). -/
theorem exec_runHeld {s t : State} (hp : paramsWf s.params = true) (h : runHeld s) (i : Instr) (e : exec i s = .next t) :
    runHeld t := by
  cases i with
  | unpark p => exact withForm_keeps e h fun _ => unpark_runHeld h
  | park p => exact withForm_keeps e h fun _ => park_runHeld h
  | startRun p => exact withForm_keeps e h fun a => startRun_runHeld hp h a
  | resume p => exact withForm_keeps e h fun _ => resume_runHeld hp h
  | resetTrip p => exact withForm_keeps e h fun _ => resetTrip_runHeld h
  | softReset p => exact withForm_keeps e h fun _ => softReset_runHeld h
  | restConfirm =>
    cases e
    refine h.onExpiry _ fun u hu => ?_
    have rested : runHeld u.restConfirmed.takeRest := by
      unfold State.takeRest
      split
      · exact runHeld.of_keptBut (s := u.restConfirmed) hu (State.beginWait_touches _).1 (by decide)
      · exact runHeld.comeToRest (s := u.restConfirmed) hu
    exact rested.testBoth.deriveBoarding
  | torqueReadyTimeout =>
    cases e
    exact h.onExpiry _ fun u hu => (runHeld.endStart (s := u.stopTorque) hu _ _).deriveBoarding
  | uplink c ok frame =>
    cases e
    split
    exacts [(h.actUplink c _).deriveBoarding, h]
  | powerOnReset x =>
    cases e
    obtain ⟨-, run, -⟩ := State.powerOn_clear x
    exact runHeld.of_none run
  | _ => exact h.of_keptBut (exec_keptBut e (by intros; exact Instr.noConfusion)) (by simp only [partsOf]; decide)

/-! ### The values that the curves are computed from -/

theorem curvesInv_reset : curvesInv State.reset :=
  ⟨fun _ h => (not_mem_replicate_none h).elim, fun _ h => (not_mem_replicate_none h).elim, nofun⟩

theorem exec_curvesInv {s t : State} (hp : paramsWf s.params = true) (h : curvesInv s) {i : Instr}
    (e : exec i s = .next t) : curvesInv t := by
  obtain ⟨segments, limits, run⟩ := h
  exact ⟨exec_segmentsHeld segments i e, exec_limitsHeld ⟨hp, limits⟩ i e, exec_runHeld hp run i e⟩

/-- A step executes the head of the queue, or lets the time pass (log 2). -/
theorem step_curvesInv {s t : State} (hp : paramsWf s.params = true) (h : curvesInv s) (e : step s = .next t) :
    curvesInv t := by
  unfold step at e
  split at e
  · cases e
    exact h
  · exact exec_curvesInv (by exact hp) (by exact h) e

/-! ### The distances -/

/-- The length and the berths of an active geometry lie in their ranges (R1, R5). -/
theorem geometry_bounds {g : Geometry} (h : geometryInv g) (present : g.header.isSome = true) :
    g.len ≤ 4000000 ∧ ∀ k, g.inUse.contains k = true → g.berth k ≤ g.len := by
  obtain ⟨head, hg⟩ := Option.isSome_iff_exists.1 present
  have checks := h.resolve_left (by simp [hg])
  simp only [Bool.and_eq_true] at checks
  obtain ⟨⟨⟨⟨⟨header, -⟩, terminals⟩, intermediates⟩, -⟩, ranges⟩ := checks
  have len : g.len = head.trackLen := by simp only [Geometry.len, hg]
  have count : g.count = head.count := by simp only [Geometry.count, hg]
  simp only [checkHeader, hg, decide_eq_true_eq] at header
  simp only [checkTerminals, Bool.and_eq_true, beq_iff_eq] at terminals
  obtain ⟨⟨-, first⟩, last⟩ := terminals
  refine ⟨by omega, fun k used => ?_⟩
  simp only [Geometry.inUse, hg, List.contains_iff_mem] at used
  split_ifs at used with two four
  · simp only [List.mem_cons, List.not_mem_nil, or_false] at used
    rcases used with rfl | rfl <;> omega
  · simp only [checkIntermediates, count, four, bne_self_eq_false, Bool.false_or, Bool.and_eq_true,
      decide_eq_true_eq] at intermediates
    obtain ⟨⟨-, order⟩, -⟩ := intermediates
    simp only [List.mem_cons, List.not_mem_nil, or_false] at used
    rcases used with rfl | rfl | rfl | rfl <;> omega
  · cases used

/-- With pA within the counting bounds no car stands more than 5,000 mm outside the track (R8, R9). -/
theorem State.pos_bounds {s : State} (h : s.geo.pA ≤ s.countBound) (hg : s.hasGeometry = true) (c : Car) :
    -5000 ≤ s.pos c ∧ s.pos c ≤ s.len + 5000 := by
  rw [State.countBound, if_pos hg] at h
  have posA : s.posA ≤ s.len + 5000 ∧ 0 ≤ s.posA := by
    unfold State.posA
    omega
  cases c with
  | a => exact ⟨by show -5000 ≤ s.posA; omega, posA.1⟩
  | b =>
    show -5000 ≤ (s.len : Int) - s.posA ∧ (s.len : Int) - s.posA ≤ s.len + 5000
    omega

/-- A distance from a leading end to a point of the track, or of car A to its stop, stays within L + 5,000 + 2h (R84). -/
theorem curve_distances {s : State} (hp : paramsWf s.params = true) (h : positionInv s) (hg : s.hasGeometry = true)
    (r : RunRecord) (c : Car) {x : Int} (low : 0 ≤ x) (high : x ≤ s.len) :
    (x - leadingEnd s (r.carUp c) (s.pos c)).natAbs ≤ s.len + 5000 + 2 * s.par 0x11
      ∧ (s.inUse r.target = true → s.remaining r ≤ s.len + 5000 + 2 * s.par 0x11)
      ∧ s.len + 5000 + 2 * s.par 0x11 ≤ 4065000 := by
  obtain ⟨geometry, bound, -⟩ := h
  obtain ⟨len, berths⟩ := geometry_bounds geometry hg
  have half : s.par 0x11 ≤ 30000 :=
    paramsWf_par_le hp (row := ⟨0x11, true, 2000, 12000, 30000⟩) (by decide) (by decide)
  have track : s.len ≤ 4000000 := len
  obtain ⟨posLow, posHigh⟩ := State.pos_bounds bound hg c
  obtain ⟨aLow, aHigh⟩ : -5000 ≤ s.posA ∧ s.posA ≤ s.len + 5000 := State.pos_bounds bound hg .a
  refine ⟨?_, fun used => ?_, by omega⟩
  · unfold leadingEnd
    split <;> omega
  · have berth : s.berth r.target ≤ s.len := berths _ used
    unfold State.remaining
    split <;> omega

/-- The largest argument of a root (R84). -/
theorem curve_argument_le {vt a d : Nat} (hv : vt ≤ 12000) (ha : a ≤ 1200) (hd : d ≤ 4065000) :
    vt * vt + 2 * a * d ≤ 9900000000 := by
  have square : vt * vt ≤ 12000 * 12000 := Nat.mul_le_mul hv hv
  have product : 2 * a * d ≤ 2 * 1200 * 4065000 := Nat.mul_le_mul (Nat.mul_le_mul_left 2 ha) hd
  omega

/-- A sample publishes a permitted speed, which is clamped (R80, R84). -/
theorem execHaulSample_vPerm_le (s : State) : ∃ t, exec .haulSample s = .next t ∧ t.haul.vPerm ≤ 12000 := by
  refine ⟨_, execHaulSample_eq s, ?_⟩
  rw [State.deriveBoarding_haul, State.haulStep_eq]
  generalize (if s.haulTicked.arrivedUnreferenced then s.haulTicked.enterHalted .notReferenced else s.haulTicked) = u
  have published : u.publishHaul.haul.vPerm ≤ 12000 := u.permitted_le
  rcases u.compareHaul_haul with same | ⟨-, -, stopped⟩ | ⟨-, -, -, -, same⟩
  · rwa [same]
  · rw [stopped]
    exact Nat.zero_le _
  · rwa [same]

/-- Settles O52, part by part: the root by its bits, the curves' values by every command keeping segments, restrictions and
run within bounds, the distances by the ranges of the geometry and of h. -/
theorem integerSquareRootRoundsDown : Obligations.IntegerSquareRootRoundsDown :=
  ⟨fun _ h => isqrt_bounds h, curvesInv_reset, fun _ _ => step_curvesInv,
    fun _ hp h hg r c _ => curve_distances hp h hg r c, fun _ _ _ hv ha hd => ⟨curve_argument_le hv ha hd, by decide⟩,
    execHaulSample_vPerm_le⟩

end Sys2Proof.Machine
end

-- ==== EMERGENCY STOP and the hardwired inputs ====
section
/-! EMERGENCY STOP and the two hardwired inputs hand their trip causes to OSB (R97, R98, R100, R101, R104, R105). -/

namespace Sys2Proof.Machine

/-! ### A cause taken, with the boarding states derived -/

/-- PARKED ignores every cause but E-STOP (R100). -/
theorem State.takeCause_ignored {s : State} (h : s.haul.line = .parked) {c : TripCause} (hc : c ≠ .estop) :
    keptBut [.boarding] s (s.takeCause c).deriveBoarding := by
  rw [State.takeCause_of_parked h hc]
  exact s.deriveBoarding_touches.1

/-- PARKED records E-STOP among the further causes and raises TRIP (R97, R100). -/
theorem State.takeCause_estop_of_parked {s : State} (h : s.haul.line = .parked) :
    let t := (s.takeCause .estop).deriveBoarding
    keptBut [.latch, .attention, .boarding] s t ∧ t.osb.first = s.osb.first ∧ hasAttention t .trip = true
      ∧ ∀ d : TripCause, causeIn t.osb.further d = (causeIn s.osb.further d || decide (d = .estop)) := by
  have recorded : s.takeCause .estop = s.addFurther .estop := by simp [State.takeCause, h]
  have derived := (s.addFurther .estop).deriveBoarding_touches
  rw [recorded]
  refine ⟨((s.addFurther_touches .estop).trans derived).1, ?_, derived.2.hasAttention (State.hasAttention_raise _ _),
    fun d => ?_⟩
  · rw [State.deriveBoarding_osb]
    rfl
  · rw [State.deriveBoarding_osb]
    exact causeIn_causeInsert s.osb.further .estop d

/-- Every line state but PARKED and TRIPPED enters TRIPPED (R100, R101). -/
theorem State.takeCause_entered {s : State} (hp : s.haul.line ≠ .parked) (ht : s.haul.line ≠ .tripped)
    (c : TripCause) : enteredTripped c s (s.takeCause c).deriveBoarding := by
  rw [State.takeCause_of_service hp ht]
  exact (s.enterTripped_entered c).derive

/-! ### EMERGENCY STOP -/

/-- Changes made one after the other. -/
theorem keptBut.trans {a b : List Part} {s t u : State} (h : keptBut a s t) (k : keptBut b t u) :
    keptBut (a ++ b) s u :=
  fun p hp => (h p fun ha => hp (List.mem_append_left b ha)).trans (k p fun hb => hp (List.mem_append_right a hb))

/-- A result is a change of the result buffer alone (R178). -/
theorem keptBut.reply {a b : List Part} {s t : State} (h : keptBut a s t) (hab : a ⊆ b) (hb : Part.result ∈ b)
    (code : Byte) (rc : ResultCode) (d : List Byte) : keptBut b s (t.reply code rc d) := fun p hp =>
  (h p fun ha => hp (hab ha)).trans
    ((t.reply_touches code rc d).1 p fun hr => hp (List.mem_singleton.1 hr ▸ hb))

theorem tookFurther.reply {c : TripCause} {s t : State} (h : tookFurther c s t) (code : Byte) (rc : ResultCode)
    (d : List Byte) : tookFurther c s (t.reply code rc d) := by
  unfold tookFurther at h ⊢
  split at h
  case isTrue latched =>
    rw [if_pos latched]
    exact h.reply (List.Subset.refl _) (by decide) code rc d
  case isFalse new =>
    obtain ⟨kept, rest⟩ := h
    rw [if_neg new]
    exact ⟨kept.reply (List.Subset.refl _) (by decide) code rc d, rest⟩

/-- Settles O28: COMMANDED is taken by the line state, and the result follows. -/
theorem emergencyStopHandsCommanded : Obligations.EmergencyStopHandsCommanded := by
  intro s
  refine ⟨(s.takeCause .commanded).deriveBoarding.reply 0x33 .ok [], rfl, rfl, fun parked => ?ignored,
    fun tripped => (State.takeCause_tookFurther tripped .commanded).reply _ _ _, fun hp ht => ⟨?entered, ?frame⟩⟩
  case ignored => exact (State.takeCause_ignored parked (by decide)).reply (by decide) (by decide) _ _ _
  case entered => exact State.takeCause_entered hp ht .commanded
  case frame => exact exec_keptBut (c := .emergencyStop (.fields {})) rfl nofun

/-! ### The hardwired inputs -/

/-- The taken levels of the two inputs (R97). -/
def State.withInputs (s : State) (estop driveFault : Bool) : State :=
  { s with osb := { s.osb with estop := estop, driveFault := driveFault } }

theorem State.withInputs_touches (s : State) (estop driveFault : Bool) :
    touches [.inputs] s (s.withInputs estop driveFault) := by
  refine ⟨fun p hp => ?_, by simp [attentionKept, State.withInputs]⟩
  cases p with
  | inputs => exact absurd (by decide) hp
  | _ => simp [samePart, sameCarPart, State.withInputs]

theorem State.withInputs_self (s : State) : s.withInputs s.osb.estop s.osb.driveFault = s := rfl

/-- Taking a cause leaves the taken levels of the inputs (R97, R100). -/
theorem State.takeCause_inputs (s : State) (c : TripCause) :
    (s.takeCause c).deriveBoarding.osb.estop = s.osb.estop
      ∧ (s.takeCause c).deriveBoarding.osb.driveFault = s.osb.driveFault := by
  obtain ⟨estop, driveFault⟩ : _ ∧ _ :=
    ((s.takeCause_touches c).trans (State.deriveBoarding_touches _)).1 .inputs (by decide)
  exact ⟨estop.symm, driveFault.symm⟩

/-- The emergency-stop input going inactive, or staying so (R97). -/
theorem execEmergencyStopInput_inactive (s : State) :
    execEmergencyStopInput false s = .next (s.withInputs false s.osb.driveFault) := by
  cases h : s.osb.estop with
  | false =>
    have same : s.withInputs false s.osb.driveFault = s := by rw [← h, s.withInputs_self]
    simp only [execEmergencyStopInput, h, if_true, same]
  | true => simp only [execEmergencyStopInput, h, Bool.false_eq_true, if_false, State.withInputs]

/-- The emergency-stop input going active hands E-STOP to OSB (R97). -/
theorem execEmergencyStopInput_active {s : State} (h : s.osb.estop = false) :
    execEmergencyStopInput true s
      = .next ((s.withInputs true s.osb.driveFault).takeCause .estop).deriveBoarding := by
  simp only [execEmergencyStopInput, h, Bool.true_eq_false, if_false, if_true, State.withInputs]

/-- The drive-fault input going inactive, or staying so (R97). -/
theorem execDriveFaultInput_inactive (s : State) :
    execDriveFaultInput false s = .next (s.withInputs s.osb.estop false) := by
  cases h : s.osb.driveFault with
  | false =>
    have same : s.withInputs s.osb.estop false = s := by rw [← h, s.withInputs_self]
    simp only [execDriveFaultInput, h, if_true, same]
  | true => simp only [execDriveFaultInput, h, Bool.false_eq_true, if_false, State.withInputs]

/-- The drive-fault input going active hands DRIVE FAULT to OSB (R97). -/
theorem execDriveFaultInput_active {s : State} (h : s.osb.driveFault = false) :
    execDriveFaultInput true s
      = .next ((s.withInputs s.osb.estop true).takeCause .driveFault).deriveBoarding := by
  simp only [execDriveFaultInput, h, Bool.true_eq_false, if_false, if_true, State.withInputs]

/-- Settles O29: an input that stays or goes inactive by its definition, and one that goes active by what its cause
leaves in each line state, taken with the new level. -/
theorem hardwiredInputsHandTheirCauses : Obligations.HardwiredInputsHandTheirCauses := by
  intro s
  refine ⟨congrArg _ (if_pos rfl), congrArg _ (if_pos rfl), execEmergencyStopInput_inactive s,
    execDriveFaultInput_inactive s, fun inactive => ?estop, fun inactive => ?driveFault⟩
  case estop =>
    have level := s.withInputs_touches true s.osb.driveFault
    obtain ⟨estop, driveFault⟩ := (s.withInputs true s.osb.driveFault).takeCause_inputs .estop
    refine ⟨_, execEmergencyStopInput_active inactive, estop, driveFault, fun parked => ?recorded,
      fun tripped => State.takeCause_tookFurther (s := s.withInputs true s.osb.driveFault) tripped .estop,
      fun hp ht => State.takeCause_entered (s := s.withInputs true s.osb.driveFault) hp ht .estop⟩
    obtain ⟨kept, first, raised, further⟩ :=
      State.takeCause_estop_of_parked (s := s.withInputs true s.osb.driveFault) parked
    exact ⟨level.1.trans kept, first, raised, further⟩
  case driveFault =>
    have level := s.withInputs_touches s.osb.estop true
    obtain ⟨estop, driveFault⟩ := (s.withInputs s.osb.estop true).takeCause_inputs .driveFault
    refine ⟨_, execDriveFaultInput_active inactive, driveFault, estop, fun parked => ?ignored,
      fun tripped => State.takeCause_tookFurther (s := s.withInputs s.osb.estop true) tripped .driveFault,
      fun hp ht => State.takeCause_entered (s := s.withInputs s.osb.estop true) hp ht .driveFault⟩
    exact level.1.trans (State.takeCause_ignored (s := s.withInputs s.osb.estop true) parked (by decide))

end Sys2Proof.Machine
end

-- ==== RESET TRIP ====
section
/-! RESET TRIP makes its checks in order, clears the latch, and leaves TRIPPED for DWELL, with the stop records kept or
new, or for HALTED (R105 to R108, R116, R120). -/

namespace Sys2Proof.Machine

/-! ### The checks in TRIPPED -/

theorem State.answerBy_append (s : State) (code : Byte) (l m : List Check) (passed : State) :
    s.answerBy code (l ++ m) passed = s.answerBy code l (s.answerBy code m passed) := by
  induction l with
  | nil => rfl
  | cons x l ih =>
    obtain ⟨b, rc, d⟩ := x
    rw [List.cons_append, State.answerBy_cons, State.answerBy_cons, ih]

/-- A check of each of several causes refuses with the first cause that fails it (R106). -/
theorem State.answerBy_causes (s : State) (code : Byte) (f : TripCause → Bool) (causes : List TripCause)
    (passed : State) :
    s.answerBy code (causes.map fun c => (f c, .refused, [BitVec.ofNat 8 (0x40 + causeCode c)])) passed
      = match causes.find? f with
        | some c => s.refuse code (.cause c)
        | none => passed := by
  induction causes with
  | nil => rfl
  | cons c causes ih =>
    rw [List.map_cons, State.answerBy_cons, List.find?_cons, ih]
    cases f c with
    | true => simp [State.refuse, be1_eq, conditionCode]
    | false => rfl

/-- Of all causes, the one that is the first cause is found where it meets the test (R106). -/
theorem find_allCauses_first (first : Option TripCause) (f : TripCause → Bool) :
    (allCauses.find? fun c => decide (first = some c) && f c) = first.filter f := by
  cases first with
  | none => rfl
  | some x =>
    have only : (fun c => decide (some x = some c) && f c) = fun c => decide (x = c) && f x := by
      funext c
      by_cases same : x = c
      · rw [same]; simp
      · simp [same]
    rw [only, Option.filter_some]
    cases f x with
    | false => simp
    | true => cases x <;> rfl

/-- In TRIPPED, RESET TRIP makes its checks in the order of R106. -/
theorem resetTrip_of_tripped {s : State} (h : s.haul.line = .tripped) :
    resetTrip s = s.answerBy 0x34 (resetChecks s) (s.leaveTripped.deriveBoarding.reply 0x34 .ok []) := by
  simp only [resetTrip, h, State.resetBlocked, resetChecks, State.answerBy_append, State.answerBy_cons,
    State.answerBy_nil, State.answerBy_causes, find_allCauses_first, s.trackBrakeLatched_eq]
  cases s.osb.resetElapsed with
  | false => rfl
  | true =>
    cases s.osb.first.filter fun c => !s.causeAbsent c with
    | some c => rfl
    | none =>
      cases allCauses.find? fun c => causeIn s.osb.further c && !s.causeAbsent c with
      | some c => rfl
      | none =>
        generalize (_ && !(s.stp.carA.railBrakesOff && s.stp.carB.railBrakesOff)) = brakes
        cases brakes <;> cases s.osb.estop <;> rfl

/-! ### The exits from TRIPPED -/

/-- Off a berth the line leaves TRIPPED for HALTED (R107). -/
theorem State.leaveTripped_away {s : State} (h : s.current = none) :
    s.leaveTripped = s.clearLatch.enterHalted .offBerth := by
  have away : s.clearLatch.current = none := h
  simp only [State.leaveTripped, away]

/-- The line in DWELL after a trip without its old stop records, ahead of the new ones (R107, R116). -/
def State.dwellingBare (s : State) : State := s.clearLatch.dwelling.discardRecords

/-- Where car A's record names no station, or another, the line leaves TRIPPED for DWELL with new records (R107). -/
theorem State.leaveTripped_renews {s : State} {k : Nat} (h : s.current = some k)
    (other : ∀ r, s.record .a = some r → r.station ≠ k) : s.leaveTripped = s.dwellingBare.createRecords k := by
  have berthed : s.clearLatch.current = some k := h
  have unnamed : s.clearLatch.recordNames k = false := by
    have record : s.clearLatch.record .a = s.record .a := rfl
    rw [State.recordNames, record]
    cases hr : s.record .a with
    | none => rfl
    | some r => simpa using other r hr
  simp only [State.leaveTripped, berthed, unnamed, Bool.false_eq_true, if_false]
  rfl

/-- The line in DWELL after a trip with its stop records kept, ahead of their tests (R107). -/
def State.dwellingKept (s : State) : State := ((s.clearLatch.dwelling.setSuspended false).moveAlarm .a).moveAlarm .b

/-- Where car A's record names its station, the line leaves TRIPPED for DWELL with its records kept (R107). -/
theorem State.leaveTripped_keeps {s : State} {k : Nat} (h : s.current = some k)
    (named : ∃ r ∈ s.record .a, r.station = k) : s.leaveTripped = s.dwellingKept.testBoth := by
  have berthed : s.clearLatch.current = some k := h
  obtain ⟨r, hr, station⟩ := named
  have record : s.clearLatch.record .a = some r := hr
  have names : s.clearLatch.recordNames k = true := by simp [State.recordNames, record, station]
  simp only [State.leaveTripped, berthed, names, if_true]
  rfl

theorem State.dwellingBare_touches (s : State) :
    touches (lineParts ++ [.run, .haltCause, .torque, .speeds, .thresholds] ++ [.records, .ent, .claims, .gates])
      s.clearLatch s.dwellingBare :=
  s.clearLatch.dwelling_touches.trans (State.discardRecords_touchesLess _)

theorem State.dwellingKept_moved (s : State) : touches [.records, .alarms] s.clearLatch.dwelling s.dwellingKept :=
  (((State.setSuspended_touches _ false).trans (State.moveAlarm_touches _ .a)).trans
    (State.moveAlarm_touches _ .b)).mono (by decide)

theorem State.dwellingKept_touches (s : State) :
    touches (lineParts ++ [.run, .haltCause, .torque, .speeds, .thresholds] ++ [.records, .alarms])
      s.clearLatch s.dwellingKept :=
  s.clearLatch.dwelling_touches.trans s.dwellingKept_moved

/-- Every exit keeps the latch, the hold and the wait as they are cleared (R107). -/
theorem State.leaveTripped_cleared (s : State) : touches transitionParts s.clearLatch s.leaveTripped := by
  cases h : s.current with
  | none =>
    rw [State.leaveTripped_away h]
    exact (s.clearLatch.enterHalted_touches .offBerth).mono (by decide)
  | some k =>
    by_cases named : ∃ r ∈ s.record .a, r.station = k
    · rw [State.leaveTripped_keeps h named]
      exact (s.dwellingKept_touches.trans (State.testBoth_touches _)).mono (by decide)
    · rw [State.leaveTripped_renews h fun r hr station => named ⟨r, hr, station⟩]
      exact (s.dwellingBare_touches.trans (State.createRecords_touches _ k)).mono (by decide)

/-- The latch, the hold and the wait after an accepted RESET TRIP (R107). -/
theorem State.leaveTripped_osb (s : State) :
    s.leaveTripped.osb.first = none ∧ s.leaveTripped.osb.fromState = none ∧ s.leaveTripped.osb.further = 0
      ∧ s.leaveTripped.osb.hold = true ∧ s.leaveTripped.osb.resetDue = none
      ∧ s.leaveTripped.osb.resetElapsed = false := by
  obtain ⟨first, fromState, -, further⟩ : _ ∧ _ ∧ _ ∧ _ := s.leaveTripped_cleared.1 .latch (by decide)
  have hold : s.clearLatch.osb.hold = s.leaveTripped.osb.hold := s.leaveTripped_cleared.1 .hold (by decide)
  obtain ⟨due, elapsed⟩ : _ ∧ _ := s.leaveTripped_cleared.1 .resetWait (by decide)
  exact ⟨first.symm, fromState.symm, further.symm, hold.symm, due.symm, elapsed.symm⟩

/-! ### New stop records in DWELL -/

/-- New stop records complete an entry to DWELL, whatever became of the old ones (R107, R116, R120). -/
theorem State.createRecords_entered {parts : List Part} {s u : State} (stands : standsInDwell s u)
    (cause : u.haul.haltCause = .noCause) (kept : keptBut parts s u)
    (hp : ∀ p ∈ Part.rest :: .alarms :: .loads :: berthingParts, p ∉ parts) (k : Nat) :
    enteredDwell k s (u.createRecords k).deriveBoarding := by
  have later : touches [.records, .loads, .attention, .boarding] (u.newRecords k)
      (u.createRecords k).deriveBoarding :=
    (((State.testArrived_touches _ .a).step (State.testArrived_touches _ .b)).trans
      (State.deriveBoarding_touches _)).mono (by decide)
  have all := (u.newRecords_touches k).trans later
  have same : SameBerthing s u := .of_keptBut kept fun p hb => hp p (by simp [hb])
  have line : u.haul.line = .dwell := stands.1
  have rest : u.spd.restSince = s.spd.restSince := (kept .rest (hp _ (by simp))).1.symm
  have record (c : Car) :
      (u.createRecords k).deriveBoarding.record c = some (arrivalRecord s c (stationOf k c)) := by
    rw [(State.deriveBoarding_touches _).1.record (by decide), State.createRecords_record line,
      same.arrivalRecord rest (kept.pendingAlarm (hp _ (by simp)))]
  obtain ⟨alarmA, alarmB⟩ : _ ∧ _ := later.1 .alarms (by decide)
  refine ⟨stands.of_touches all (by decide), (all.1 .haltCause (by decide)).symm.trans cause, record .a, record .b,
    alarmA.symm, alarmB.symm, fun service => ?_, later.2.hasAttention (State.hasAttention_raise _ _)⟩
  obtain ⟨a, b⟩ := ((kept .loads (hp _ (by simp))).trans
    (State.createRecords_loads (same.inspection.trans service) k)).trans
      ((State.deriveBoarding_touches _).1 .loads (by decide))
  exact ⟨a.symm, b.symm⟩

/-- The exit from TRIPPED with new stop records (R107, R116). -/
theorem State.leaveTripped_enteredDwell {s : State} {k : Nat} (h : s.current = some k)
    (other : ∀ r, s.record .a = some r → r.station ≠ k) : enteredDwell k s s.leaveTripped.deriveBoarding := by
  have discarded := State.discardRecords_touchesLess s.clearLatch.dwelling
  have stands : standsInDwell s s.clearLatch.dwelling := s.clearLatch.dwelling_stands
  rw [State.leaveTripped_renews h other]
  exact State.createRecords_entered (stands.of_touches discarded (by decide))
    (discarded.1 .haltCause (by decide)).symm (s.clearLatch_touches.trans s.dwellingBare_touches).1 (by decide) k

/-! ### Kept stop records in DWELL -/

/-- A stop record that is kept at the exit from TRIPPED, ahead of its test (R107). -/
def State.keptRecord (s : State) (c : Car) (r : StopRecord) : StopRecord :=
  { r with suspended := false, alarm := r.alarm || (s.car c).pendingAlarm }

/-- Both pending alarms move into the records, where there are records (R107). -/
theorem State.moveAlarms_record (s : State) (c : Car) :
    ((s.moveAlarm .a).moveAlarm .b).record c
      = (s.record c).map fun r => { r with alarm := r.alarm || (s.car c).pendingAlarm } := by
  cases c with
  | a => exact (congrArg CarState.record (State.moveAlarm_otherCar _ .b)).trans (s.moveAlarm_record .a)
  | b =>
    have other : (s.moveAlarm .a).car .b = s.car .b := s.moveAlarm_otherCar .a
    rw [State.moveAlarm_record, State.record, other, State.record]

/-- A pending alarm that moved into a record is pending no more (R107). -/
theorem State.moveAlarm_pendingAlarm {s : State} {c : Car} (h : (s.record c).isSome) :
    ((s.moveAlarm c).car c).pendingAlarm = false := by
  obtain ⟨r, hr⟩ := Option.isSome_iff_exists.1 h
  simp only [State.moveAlarm, hr]
  cases c <;> rfl

theorem State.moveAlarms_pendingAlarm {s : State} {c : Car} (h : (s.record c).isSome) :
    (((s.moveAlarm .a).moveAlarm .b).car c).pendingAlarm = false := by
  cases c with
  | a =>
    exact (congrArg CarState.pendingAlarm (State.moveAlarm_otherCar _ .b)).trans (State.moveAlarm_pendingAlarm h)
  | b =>
    refine State.moveAlarm_pendingAlarm ?_
    rwa [State.record, show (s.moveAlarm .a).car .b = s.car .b from s.moveAlarm_otherCar .a]

/-- The records are suspended no more in DWELL (R107). -/
theorem State.setSuspended_of_dwelling_record (s : State) (c : Car) :
    (s.clearLatch.dwelling.setSuspended false).record c = (s.record c).map fun r => { r with suspended := false } := by
  rw [State.setSuspended_record, s.clearLatch.dwelling_touches.1.record (by decide)]
  rfl

theorem State.dwellingKept_record (s : State) (c : Car) :
    s.dwellingKept.record c = (s.record c).map (s.keptRecord c) := by
  have pending : ((s.clearLatch.dwelling.setSuspended false).car c).pendingAlarm = (s.car c).pendingAlarm :=
    (s.clearLatch.dwelling_touches.trans (State.setSuspended_touches _ false)).1.pendingAlarm (by decide) c
  rw [State.dwellingKept, State.moveAlarms_record, pending, State.setSuspended_of_dwelling_record, Option.map_map]
  rfl

theorem State.dwellingKept_pendingAlarm {s : State} {c : Car} (h : (s.record c).isSome) :
    (s.dwellingKept.car c).pendingAlarm = false := by
  refine State.moveAlarms_pendingAlarm ?_
  rwa [State.setSuspended_of_dwelling_record, Option.isSome_map]

/-- The exit from TRIPPED with the stop records kept (R107, R120). -/
theorem State.leaveTripped_standsInDwell {s : State} {k : Nat} (h : s.current = some k)
    (named : ∃ r ∈ s.record .a, r.station = k) :
    let t := s.leaveTripped.deriveBoarding
    standsInDwell s t ∧ t.haul.haltCause = .noCause ∧ t.adm.claims = s.adm.claims
      ∧ ∀ c, (s.record c).isSome → (t.car c).pendingAlarm = false := by
  have stands : standsInDwell s s.clearLatch.dwelling := s.clearLatch.dwelling_stands
  have tested : touches [.records, .attention, .boarding] s.dwellingKept s.dwellingKept.testBoth.deriveBoarding :=
    (State.testBoth_touches _).trans (State.deriveBoarding_touches _)
  have moved : touches [.records, .alarms, .attention, .boarding] s.clearLatch.dwelling
      s.dwellingKept.testBoth.deriveBoarding :=
    (s.dwellingKept_moved.trans tested).mono (by decide)
  obtain ⟨claims, -⟩ : _ ∧ _ := (s.clearLatch.dwelling_touches.trans moved).1 .claims (by decide)
  rw [State.leaveTripped_keeps h named]
  exact ⟨stands.of_touches moved (by decide), (moved.1 .haltCause (by decide)).symm, claims.symm,
    fun c record => (tested.1.pendingAlarm (by decide) c).trans (State.dwellingKept_pendingAlarm record)⟩

/-- A kept record that is still in ARRIVED is tested as the line enters DWELL (R107, R120). -/
theorem State.dwellingKept_berthedTest (s : State) (c : Car) (q : StopRecord) :
    s.dwellingKept.berthedTest c q = if q.phase = .arrived ∧ s.geo.inspection = false then
      arrivedRecord s c (s.berthed c q.station && s.atRest && (s.car c).live) q else q := by
  have kept := (s.clearLatch_touches.trans s.dwellingKept_touches).1
  have same : SameBerthing s s.dwellingKept := .of_keptBut kept (by decide)
  have rest : s.dwellingKept.atRest = s.atRest :=
    congrArg Option.isSome (kept .rest (by decide)).1.symm
  have line : s.dwellingKept.haul.line = .dwell := (s.dwellingKept_moved.1 .line (by decide)).symm
  rw [State.berthedTest, State.berthedConditions, rest, line, same.inspection, same.berthed, same.live,
    same.arrivedRecord]
  simp

/-- A kept record after the exit from TRIPPED (R107, R120). -/
theorem State.leaveTripped_keptRecord {s : State} {k : Nat} (h : s.current = some k)
    (named : ∃ r ∈ s.record .a, r.station = k) {c : Car} {r : StopRecord} (hr : s.record c = some r) :
    let q := s.keptRecord c r
    let tested := arrivedRecord s c (s.berthed c q.station && s.atRest && (s.car c).live) q
    let t := s.leaveTripped.deriveBoarding
    t.record c = some (if q.phase = .arrived ∧ s.geo.inspection = false then tested else q)
      ∧ (q.phase = .arrived → s.geo.inspection = false → tested.phase ≠ .arrived →
        hasAttention t .stopPhase = true) := by
  intro q tested t
  have record : s.dwellingKept.record c = some q := by rw [State.dwellingKept_record, hr]; rfl
  have test : s.dwellingKept.berthedTest c q = if q.phase = .arrived ∧ s.geo.inspection = false then tested else q :=
    s.dwellingKept_berthedTest c q
  have exit : t = s.dwellingKept.testBoth.deriveBoarding :=
    congrArg State.deriveBoarding (State.leaveTripped_keeps h named)
  have derived := State.deriveBoarding_touches s.dwellingKept.testBoth
  refine ⟨?_, fun arrived service leaves => ?_⟩
  · rw [exit, derived.1.record (by decide), State.testBoth_record, record, Option.map_some, test]
  · rw [if_pos ⟨arrived, service⟩] at test
    have changes : s.dwellingKept.berthedTest c q ≠ q := fun stays => leaves (by rw [← test, stays, arrived])
    rw [exit]
    exact derived.2.hasAttention (State.testBoth_raises record changes)

/-! ### RESET TRIP -/

/-- The further causes as RESET TRIP empties them in PARKED (R108). -/
def State.clearFurther (s : State) : State := { s with osb := { s.osb with further := 0 } }

theorem State.clearFurther_touches (s : State) : touches [.latch] s s.clearFurther := by
  refine ⟨fun p hp => ?_, by simp [attentionKept, State.clearFurther]⟩
  cases p with
  | latch => exact absurd (by decide) hp
  | _ => simp [samePart, sameCarPart, State.clearFurther]

/-- In PARKED, RESET TRIP empties the further causes unless the emergency-stop input is active (R108). -/
theorem resetTrip_of_parked {s : State} (h : s.haul.line = .parked) :
    resetTrip s = if s.osb.estop then s.refuse 0x34 .estop else s.clearFurther.reply 0x34 .ok [] := by
  simp only [resetTrip, h]
  rfl

theorem resetTrip_of_service {s : State} (ht : s.haul.line ≠ .tripped) (hp : s.haul.line ≠ .parked) :
    resetTrip s = s.reply 0x34 .wrongState [] := by
  unfold resetTrip
  split <;> first | rfl | contradiction

/-- Settles O30: by the line state; in TRIPPED the checks in order, and then the exit by car A's station and record. -/
theorem resetTripClearsTheLatch : Obligations.ResetTripClearsTheLatch := by
  intro s ends
  refine ⟨fun tripped => ⟨fun rc d refused => ?refused, fun passed => ?passed⟩, fun parked => ⟨fun active => ?active,
    fun inactive => ?emptied⟩, fun ht hp => ?wrong⟩
  case refused =>
    exact ⟨_, ⟨congrArg Host.Outcome.next ((resetTrip_of_tripped tripped).trans (State.answerBy_of_refused refused)),
      rfl⟩, (s.reply_touches _ _ _).1⟩
  case passed =>
    have row : exec (.resetTrip (.fields {})) s = .next (s.leaveTripped.deriveBoarding.reply 0x34 .ok []) :=
      congrArg Host.Outcome.next ((resetTrip_of_tripped tripped).trans (State.answerBy_of_passed passed))
    have osb := s.leaveTripped_osb
    rw [← s.leaveTripped.deriveBoarding_osb] at osb
    obtain ⟨first, fromState, further, hold, due, elapsed⟩ := osb
    refine ⟨_, ⟨row, rfl⟩, State.deriveBoarding_boardingInv s.leaveTripped, first, fromState, further, hold, due,
      elapsed, fun away => ?halted, fun k berthed => ⟨fun other => ?renewed, fun named => ?kept⟩⟩
    case halted =>
      rw [State.leaveTripped_away away]
      exact ((s.clearLatch.enterHalted_derived .offBerth).of_touches (State.reply_touches _ _ _ _) (by decide)).from
        rfl rfl
    case renewed => exact (State.leaveTripped_enteredDwell berthed other).reply _ _ _
    case kept =>
      obtain ⟨stands, cause, claims, pending⟩ := State.leaveTripped_standsInDwell berthed named
      exact ⟨stands, cause, claims, pending, fun c r => State.leaveTripped_keptRecord berthed named⟩
  case active =>
    exact ⟨_, ⟨congrArg Host.Outcome.next ((resetTrip_of_parked parked).trans (if_pos active)), rfl⟩,
      (s.reply_touches _ _ _).1⟩
  case emptied =>
    exact ⟨_, ⟨congrArg Host.Outcome.next ((resetTrip_of_parked parked).trans (if_neg (by simp [inactive]))), rfl⟩,
      s.clearFurther_touches.1.reply (by decide) (by decide) _ _ _, rfl, rfl, rfl⟩
  case wrong =>
    exact ⟨_, ⟨congrArg Host.Outcome.next (resetTrip_of_service ht hp), rfl⟩, (s.reply_touches _ _ _).1⟩

end Sys2Proof.Machine
end

-- ==== The commanded close and ADVANCE ====
section
/-! What a commanded close, the entry to CLOSING and an ADVANCE make of a car's stop record (R119, R121 to R123). -/

namespace Sys2Proof.Machine

/-! ### A commanded close -/

theorem State.setRecord_setRecord (s : State) (c : Car) (p q : Option StopRecord) :
    (s.setRecord c p).setRecord c q = s.setRecord c q := by
  cases c <;> rfl

theorem State.setRecord_self (s : State) (c : Car) : s.setRecord c (s.record c) = s := by
  cases c <;> rfl

/-- Two changes of a car's record made one after the other are one change. -/
theorem State.modRecord_modRecord (s : State) (c : Car) (f g : StopRecord → StopRecord) :
    (s.modRecord c f).modRecord c g = s.modRecord c fun r => g (f r) := by
  cases hr : s.record c with
  | none => simp only [State.modRecord, hr]
  | some r =>
    have changed : (s.modRecord c f).record c = some (f r) := by rw [State.modRecord_record, hr, Option.map_some]
    rw [State.modRecord_of_record changed, State.modRecord_of_record hr, State.modRecord_of_record hr,
      State.setRecord_setRecord]

@[simp] theorem State.modRecord_params (s : State) (c : Car) (f : StopRecord → StopRecord) :
    (s.modRecord c f).params = s.params := by
  unfold State.modRecord; split <;> simp

/-- A change of the record together with a commanded close is one change of the record (R119). -/
theorem State.modRecord_commandClose (s : State) (c : Car) (f : StopRecord → StopRecord) (exitOnly : Bool) :
    (s.modRecord c f).commandClose c exitOnly = s.modRecord c fun r =>
      { f r with close := some ⟨exitOnly, 0, false⟩, closeDue := some (s.now + sec (s.par 0x82)) } := by
  rw [State.commandClose, State.modRecord_modRecord, State.modRecord_now, State.par_congr (s.modRecord_params c f)]

/-- The record as the entry to CLOSING makes it, the close deadline given (R123). -/
def StopRecord.closed (r : StopRecord) (closeBy : Nat) : StopRecord :=
  { r with
    phase := .closing, phaseDue := none, reopening := false, close := some ⟨false, 0, false⟩, closeDue := some closeBy }

theorem State.enterClosing_eq (s : State) (c : Car) :
    s.enterClosing c = (s.modRecord c (·.closed (s.now + sec (s.par 0x82)))).raise .stopPhase := by
  rw [State.enterClosing, State.modRecord_commandClose]
  rfl

/-! ### ADVANCE on one record -/

theorem State.advanceRecord_touches (s : State) (c : Car) : touches [.records, .attention] s (s.advanceRecord c) := by
  unfold State.advanceRecord
  split
  · exact touches.refl _ s
  · split
    case h_1 => exact touches.ite ((s.exitClose_touches c).mono (by decide)) (touches.refl _ s)
    case h_2 => exact s.enterClosing_touches c
    all_goals exact touches.refl _ s

/-- An ADVANCE replaces the record, and raises STOP PHASE where the phase changes (R121 to R123). -/
theorem State.advanceRecord_of_record {s : State} {c : Car} {r : StopRecord} (hr : s.record c = some r) :
    let p := advancedRecord s.now (sec (s.par 0x82)) r
    s.advanceRecord c = if p.phase = r.phase then s.setRecord c (some p)
      else (s.setRecord c (some p)).raise .stopPhase := by
  have same : s.setRecord c (some r) = s := by rw [← hr, s.setRecord_self]
  simp only [State.advanceRecord, hr]
  cases hp : r.phase with
  | alighting =>
    cases hc : r.close with
    | none => simp [advancedRecord, hp, hc, State.exitClose_of_record hr]
    | some y => simp [advancedRecord, hp, hc, same]
  | boarding =>
    simp [advancedRecord, hp, State.enterClosing_eq, State.modRecord_of_record hr, StopRecord.closed]
  | arrived => simp [advancedRecord, hp, same]
  | closing => simp [advancedRecord, hp, same]
  | ready => simp [advancedRecord, hp, same]

/-- The record of a car after an ADVANCE that selects it, or does not. -/
def State.afterAdvance (s : State) (selected : Bool) (r : StopRecord) : StopRecord :=
  if selected then advancedRecord s.now (sec (s.par 0x82)) r else r

/-- An ADVANCE of a car where it is selected. -/
def State.advanceIf (s : State) (selected : Bool) (c : Car) : State := if selected then s.advanceRecord c else s

theorem State.advanceIf_touches (s : State) (selected : Bool) (c : Car) :
    touches [.records, .attention] s (s.advanceIf selected c) :=
  (s.advanceRecord_touches c).ite (touches.refl _ s)

/-- What is left by an ADVANCE that selects a car, or does not: its record, the other car's, and STOP PHASE (R121 to
R123). -/
theorem State.advanceIf_of_record {s : State} {c : Car} {r : StopRecord} (hr : s.record c = some r) (selected : Bool) :
    let p := s.afterAdvance selected r
    (s.advanceIf selected c).record c = some p
      ∧ (s.advanceIf selected c).record (otherCar c) = s.record (otherCar c)
      ∧ (s.advanceIf selected c).lnk.attention
          = s.lnk.attention ||| (if p.phase ≠ r.phase then attentionMask .stopPhase else 0) := by
  cases selected with
  | false => exact ⟨hr, rfl, by simp [State.advanceIf, State.afterAdvance]⟩
  | true =>
    simp only [State.advanceIf, State.afterAdvance, if_true, State.advanceRecord_of_record hr]
    split
    case isTrue same => simp [same]
    case isFalse other =>
      refine ⟨?_, ?_, by simp⟩
      · exact State.setRecord_record s c _
      · exact State.setRecord_other s c _

theorem State.advanceIf_afterAdvance (s : State) (b : Bool) (c : Car) (selected : Bool) (r : StopRecord) :
    (s.advanceIf b c).afterAdvance selected r = s.afterAdvance selected r := by
  have kept := (s.advanceIf_touches b c).1
  have now : s.now = (s.advanceIf b c).now := kept .time (by decide)
  have params : s.params = (s.advanceIf b c).params := kept .params (by decide)
  rw [State.afterAdvance, State.par_congr params.symm, ← now, State.afterAdvance]

/-! ### ADVANCE -/

/-- The state that an accepted ADVANCE leaves (R122, R156). -/
def State.advanced (s : State) (x : Byte) : State :=
  ((s.advanceIf (decide (x ≠ 1)) .a).advanceIf (decide (x ≠ 0)) .b).deriveBoarding

theorem advance_of_selector {x : Byte} {s : State} (h : x.toNat ≤ 2) (records : s.hasRecords = true) :
    advance x s = (s.advanced x).reply 0x40 .ok
      ((s.advanceIf (decide (x ≠ 1)) .a).advanceIf (decide (x ≠ 0)) .b).phaseData := by
  simp only [advance, if_neg (Nat.not_lt.2 h), records, Bool.not_true, Bool.false_eq_true, if_false]
  by_cases zero : x = 0
  · subst zero; rfl
  · by_cases one : x = 1
    · subst one; rfl
    · simp only [if_neg zero, if_neg one, State.advanced, State.advanceIf, decide_eq_true zero, decide_eq_true one,
        if_true, ne_eq]

theorem State.phaseData_of_records {s : State} {r q : StopRecord} (hr : s.record .a = some r)
    (hq : s.record .b = some q) :
    s.phaseData = [BitVec.ofNat 8 (phaseCode r.phase), BitVec.ofNat 8 (phaseCode q.phase)] := by
  simp [State.phaseData, hr, hq, be1_eq]

/-- Two causes, each joined where its condition holds, are joined where one of the conditions holds. -/
theorem attention_or_ite (m n : BitVec 16) (p q : Prop) [Decidable p] [Decidable q] :
    m ||| (if p then n else 0) ||| (if q then n else 0) = m ||| (if p ∨ q then n else 0) := by
  by_cases hp : p <;> by_cases hq : q <;> simp [hp, hq, BitVec.or_assoc]

/-- Settles O32: the selected cars advance one after the other, car B's record untouched by car A's ADVANCE. -/
theorem advanceActsOnTheSelectedRecords : Obligations.AdvanceActsOnTheSelectedRecords := by
  intro x s ends
  refine ⟨fun beyond => ?parameter, fun hx absentA absentB => ?state, fun hx r q hr hq => ?accepted⟩
  case parameter =>
    exact ⟨_, ⟨congrArg Host.Outcome.next (if_pos beyond), rfl⟩, (s.reply_touches _ _ _).1⟩
  case state =>
    have refused : advance x s = s.reply 0x40 .wrongState [] := by
      simp [advance, Nat.not_lt.2 hx, State.hasRecords, absentA, absentB]
    exact ⟨_, ⟨congrArg Host.Outcome.next refused, rfl⟩, (s.reply_touches _ _ _).1⟩
  case accepted =>
    have accepted : exec (.advance (.fields x)) s = .next _ :=
      congrArg Host.Outcome.next (advance_of_selector hx (by simp [State.hasRecords, hr]))
    obtain ⟨recordA, keptB, attentionA⟩ := State.advanceIf_of_record hr (decide (x ≠ 1))
    obtain ⟨recordB, keptA, attentionB⟩ := State.advanceIf_of_record (c := .b) (keptB.trans hq) (decide (x ≠ 0))
    rw [State.advanceIf_afterAdvance] at recordB attentionB
    rw [State.phaseData_of_records (keptA.trans recordA) recordB] at accepted
    refine ⟨_, ⟨accepted, rfl⟩, (execAdvance_touches _ s _ accepted).1, State.deriveBoarding_boardingInv _, ?_, ?_, ?_⟩
    · exact (congrArg CarState.record (State.deriveBoarding_car _ .a)).trans (keptA.trans recordA)
    · exact (congrArg CarState.record (State.deriveBoarding_car _ .b)).trans recordB
    · refine (congrArg LnkState.attention (State.deriveBoarding_lnk _)).trans ?_
      rw [attentionB, attentionA, attention_or_ite]
      rfl

end Sys2Proof.Machine
end

-- ==== The door, alarm and evacuation commands ====
section
/-! REOPEN DOORS, ACK ALARM, EVACUATE and END EVACUATION: their checks in order, and the one car or side they act on
(R125, R126, R129, R131, R132). -/

namespace Sys2Proof.Machine

/-! ### The side a byte names -/

theorem sideOf_eq_none_iff (x : Byte) : sideOf x = none ↔ x.toNat < 1 ∨ 2 < x.toNat := by
  by_cases one : x = 1
  · subst one; decide
  · by_cases two : x = 2
    · subst two; decide
    · have n1 : x.toNat ≠ 1 := fun e => one (BitVec.eq_of_toNat_eq e)
      have n2 : x.toNat ≠ 2 := fun e => two (BitVec.eq_of_toNat_eq e)
      simp only [sideOf, if_neg one, if_neg two, true_iff]
      omega

/-! ### REOPEN DOORS -/

/-- A record whose doors open once more until a time (R125). -/
def StopRecord.reopened (r : StopRecord) (due : Nat) : StopRecord :=
  { r with doorFault := false, closeDue := none, close := none, reopening := true, phaseDue := some due }

theorem State.inPhase_of_record {s : State} {c : Car} {r : StopRecord} (hr : s.record c = some r) (p : StopPhase) :
    s.inPhase c p = decide (r.phase = p) := by
  simp only [State.inPhase, hr]
  rfl

theorem State.inPhase_of_ne {s : State} {c : Car} {p : StopPhase} (h : ∀ r, s.record c = some r → r.phase ≠ p) :
    s.inPhase c p = false := by
  cases hr : s.record c with
  | none => simp only [State.inPhase, hr]
  | some r => rw [State.inPhase_of_record hr, decide_eq_false (h r hr)]

theorem reopenDoors_refused {a : ReopenArgs} (h : 1 < a.car.toNat ∨ a.time.toNat < 1 ∨ 60 < a.time.toNat) (s : State) :
    reopenDoors a s = s.reply 0x41 .badParameter [] := by
  unfold reopenDoors
  rcases h with beyond | range
  · rw [carOf_of_beyond beyond]
  · split
    · rfl
    · rw [if_pos range]

/-- With its operands in range the command needs a record in CLOSING and the service mode (R125). -/
theorem reopenDoors_of_range {a : ReopenArgs} {c : Car} (hc : carOf a.car = some c) (least : 1 ≤ a.time.toNat)
    (most : a.time.toNat ≤ 60) (s : State) :
    reopenDoors a s = if !s.inPhase c .closing || s.geo.inspection then s.reply 0x41 .wrongState []
      else (s.modRecord c (·.reopened (s.now + sec a.time.toNat))).reply 0x41 .ok [] := by
  simp only [reopenDoors, hc]
  rw [if_neg (by omega)]
  rfl

/-! ### ACK ALARM -/

theorem State.clearAlarm_car (s : State) (c : Car) :
    (s.clearAlarm c).car c = { s.car c with
      pendingAlarm := false, record := (s.car c).record.map fun r => { r with alarm := false } } :=
  s.setCar_car c _

theorem State.clearAlarm_otherCar (s : State) (c : Car) : (s.clearAlarm c).car (otherCar c) = s.car (otherCar c) :=
  s.setCar_other c _

/-! ### The evacuation releases -/

theorem State.setEvac_evac (s : State) (c : Car) (d : Side) (b : Bool) (e : Car) (f : Side) :
    ((s.setEvac c d b).car e).evac f = if e = c ∧ f = d then b else (s.car e).evac f := by
  cases c <;> cases d <;> cases e <;> cases f <;> rfl

theorem State.setEvac_evac_same (s : State) (c : Car) (d : Side) (b : Bool) :
    ((s.setEvac c d b).car c).evac d = b := by
  rw [State.setEvac_evac, if_pos ⟨rfl, rfl⟩]

theorem State.setEvac_evac_ne (s : State) {c e : Car} {d f : Side} (b : Bool) (h : e ≠ c ∨ f ≠ d) :
    ((s.setEvac c d b).car e).evac f = (s.car e).evac f := by
  rw [State.setEvac_evac, if_neg (not_and_or.2 h)]

theorem State.restedFiveSeconds_eq (s : State) :
    s.restedFiveSeconds = decide (∃ t ∈ s.spd.restSince, t + 5000000 ≤ s.now) := by
  unfold State.restedFiveSeconds
  split
  case h_1 t ht => simp [ht]
  case h_2 none => simp [none]

/-- EVACUATE makes its checks in the order of R131 and then releases the side. -/
theorem evacuate_eq {a : CarSideArgs} {c : Car} (hc : a.car.toNat ≤ 1 → carOf a.car = some c) (s : State) :
    evacuate a s = s.answerBy 0x43 (evacuateChecks a c s)
      ((s.setEvac c ((sideOf a.side).getD .left) true).reply 0x43 .ok []) := by
  simp only [evacuateChecks, State.answerBy_cons, State.answerBy_nil, evacuate]
  by_cases car : 1 < a.car.toNat
  · rw [carOf_of_beyond car, if_pos (decide_eq_true (.inl car))]
  · rw [hc (by omega)]
    cases hd : sideOf a.side with
    | none => rw [if_pos (decide_eq_true (.inr ((sideOf_eq_none_iff _).1 hd)))]
    | some d =>
      have side : ¬(a.side.toNat < 1 ∨ 2 < a.side.toNat) := fun h => by
        rw [(sideOf_eq_none_iff _).2 h] at hd
        cases hd
      refine Eq.trans ?_ (if_neg (by simpa using not_or.2 ⟨car, side⟩)).symm
      refine if_congr (by simp) rfl ?_
      refine if_congr (by rw [State.restedFiveSeconds_eq]; simp) rfl ?_
      exact if_congr Iff.rfl rfl rfl

theorem exec_endEvacuation_of_fields {a : CarSideArgs} {c : Car} {d : Side} (hc : carOf a.car = some c)
    (hd : sideOf a.side = some d) (s : State) :
    exec (.endEvacuation (.fields a)) s = .next ((s.setEvac c d false).reply 0x44 .ok []) := by
  simp only [exec, execEndEvacuation, withForm, hc, hd]

theorem exec_endEvacuation_refused {a : CarSideArgs} (h : 1 < a.car.toNat ∨ a.side.toNat < 1 ∨ 2 < a.side.toNat)
    (s : State) :
    exec (.endEvacuation (.fields a)) s = .next (s.reply 0x44 .badParameter []) := by
  simp only [exec, execEndEvacuation, withForm]
  rcases h with car | side
  · rw [carOf_of_beyond car]
  · rw [(sideOf_eq_none_iff _).2 side]
    cases carOf a.car <;> rfl

/-! ### The four commands -/

/-- Settles O33: each command is its checks and then one change of the car, or the side, that it names. -/
theorem doorAndAlarmCommandsActOnOneCar : Obligations.DoorAndAlarmCommandsActOnOneCar := by
  intro s
  refine ⟨fun a c hc least most => ⟨fun r hr hp service => ?reopens, fun h => ?waits⟩, fun a h => ?reopenParameter,
    fun x h => ?ackParameter, fun x c hc => ?acknowledges, fun a c hc => ⟨fun rc d h => ?evacuateRefused,
    fun d hd h => ?evacuates⟩, fun a c d hc hd => ?ends, fun a h => ?endParameter⟩
  case reopens =>
    have accepted : exec (.reopenDoors (.fields a)) s
        = .next ((s.modRecord c (·.reopened (s.now + sec a.time.toNat))).reply 0x41 .ok []) := by
      refine congrArg Host.Outcome.next ((reopenDoors_of_range hc least most s).trans (if_neg ?_))
      simp [State.inPhase_of_record hr, hp, service]
    refine ⟨_, accepted, rfl, (execReopenDoors_touches _ s _ accepted).1, ?_, ?_⟩
    · exact s.modRecord_other c _
    · exact (s.modRecord_record c _).trans (by rw [hr]; rfl)
  case waits =>
    refine ⟨_, congrArg Host.Outcome.next ((reopenDoors_of_range hc least most s).trans (if_pos ?_)), rfl⟩
    rcases h with away | inspection
    · simp [State.inPhase_of_ne away]
    · simp [inspection]
  case reopenParameter => exact ⟨_, congrArg Host.Outcome.next (reopenDoors_refused h s), rfl⟩
  case ackParameter =>
    refine ⟨s.reply 0x42 .badParameter [], ?_, rfl⟩
    simp only [exec, execAckAlarm, withForm, carOf_of_beyond h]
  case acknowledges =>
    have accepted : exec (.ackAlarm (.fields x)) s = .next ((s.clearAlarm c).reply 0x42 .ok []) := by
      simp only [exec, execAckAlarm, withForm, hc]
    refine ⟨_, accepted, rfl, (execAckAlarm_touches _ s _ accepted).1, ?_, ?_, s.clearAlarm_otherCar c⟩
    · exact congrArg CarState.pendingAlarm (s.clearAlarm_car c)
    · exact congrArg CarState.record (s.clearAlarm_car c)
  case evacuateRefused =>
    exact ⟨_, congrArg Host.Outcome.next ((evacuate_eq hc s).trans (State.answerBy_of_refused h)), rfl,
      (s.reply_touches _ _ _).1⟩
  case evacuates =>
    have accepted : exec (.evacuate (.fields a)) s = .next ((s.setEvac c d true).reply 0x43 .ok []) := by
      have passed := (evacuate_eq hc s).trans (State.answerBy_of_passed h)
      rw [hd] at passed
      exact congrArg Host.Outcome.next passed
    refine ⟨_, accepted, rfl, (execEvacuate_touches _ s _ accepted).1, s.setEvac_evac_same c d true, ?_,
      fun e f h => s.setEvac_evac_ne true h⟩
    exact Bool.or_eq_true_iff.2 (.inr (s.setEvac_evac_same c d true))
  case ends =>
    have accepted := exec_endEvacuation_of_fields hc hd s
    exact ⟨_, accepted, rfl, (execEndEvacuation_touches _ s _ accepted).1, s.setEvac_evac_same c d false,
      fun e f h => s.setEvac_evac_ne false h⟩
  case endParameter => exact ⟨_, exec_endEvacuation_refused h s, rfl⟩

end Sys2Proof.Machine
end

-- ==== The deadlines of a stop record ====
section
/-! What the close deadline, the alight time, the board time and the reopen time leave of the record whose deadline
expires, and that a deadline that does not run has no expiry (R119, R121, R122, R125). -/

namespace Sys2Proof.Machine

theorem State.phaseDue_of_record {s : State} {c : Car} {r : StopRecord} (hr : s.record c = some r) (p : StopPhase) :
    s.phaseDue c p = if r.phase = p then r.phaseDue else none := by
  simp only [State.phaseDue, hr]

theorem State.advance_record (s : State) (due : Nat) (c : Car) : (s.advance due).record c = s.record c := by
  cases c <;> rfl

/-- A change of one car's record at an expiry: the record is changed, and the other car's stays. -/
theorem State.expiry_records {s : State} {c : Car} {r : StopRecord} (hr : s.record c = some r) (due : Nat)
    (f : StopRecord → StopRecord) :
    ((s.advance due).modRecord c f).record c = some (f r)
      ∧ ((s.advance due).modRecord c f).record (otherCar c) = s.record (otherCar c) := by
  rw [State.modRecord_record, State.modRecord_other, State.advance_record, State.advance_record, hr, Option.map_some]
  exact ⟨rfl, rfl⟩

theorem State.exitClose_eq (s : State) (c : Car) :
    s.exitClose c = s.modRecord c fun r =>
      { r with phaseDue := none, close := some ⟨true, 0, false⟩, closeDue := some (s.now + sec (s.par 0x82)) } := by
  rw [State.exitClose, State.modRecord_commandClose]

/-! ### The four expiries -/

section
variable {c : Car} {s : State} {r : StopRecord} {due : Nat}

theorem exec_doorFault (hr : s.record c = some r) (h : r.closeDue = some due) :
    exec (.doorFault c) s = .next (((s.advance due).modRecord c fun r =>
      { r with doorFault := true, closeDue := none }).raise .doorFault) := by
  simp only [exec, execDoorFault, hr, Option.bind_some, h, onExpiry]

theorem exec_alightTimeExpiry (hr : s.record c = some r) (hp : r.phase = .alighting) (h : r.phaseDue = some due) :
    exec (.alightTimeExpiry c) s = .next ((s.advance due).modRecord c fun r =>
      { r with phaseDue := none, close := some ⟨true, 0, false⟩
               closeDue := some (max s.now due + sec (s.par 0x82)) }) := by
  simp only [exec, execAlightTimeExpiry, State.phaseDue_of_record hr, hp, if_true, h, onExpiry, State.exitClose_eq]
  rfl

theorem exec_boardTimeExpiry (hr : s.record c = some r) (hp : r.phase = .boarding) (h : r.phaseDue = some due) :
    exec (.boardTimeExpiry c) s = .next (((s.advance due).modRecord c
      (·.closed (max s.now due + sec (s.par 0x82)))).raise .stopPhase).deriveBoarding := by
  simp only [exec, execBoardTimeExpiry, State.phaseDue_of_record hr, hp, if_true, h, onExpiry, State.enterClosing_eq]
  rfl

theorem exec_reopenTimeExpiry (hr : s.record c = some r) (hp : r.phase = .closing) (h : r.phaseDue = some due) :
    exec (.reopenTimeExpiry c) s = .next ((s.advance due).modRecord c fun r =>
      { r with reopening := false, phaseDue := none, close := some ⟨false, 0, false⟩
               closeDue := some (max s.now due + sec (s.par 0x82)) }) := by
  simp only [exec, execReopenTimeExpiry, State.phaseDue_of_record hr, hp, if_true, h, onExpiry,
    State.modRecord_commandClose]
  rfl

/-- Outside its phase, or with no deadline, a record's phase deadline does not expire. -/
theorem State.phaseDue_stopped (hr : s.record c = some r) {p : StopPhase} (h : r.phase ≠ p ∨ r.phaseDue = none) :
    s.phaseDue c p = none := by
  rw [State.phaseDue_of_record hr]
  rcases h with away | stopped
  · exact if_neg away
  · rw [stopped, ite_self]

end

/-- Settles O56: each expiry is one change of the record at the time it is taken; with the deadline stopped there is
none. -/
theorem stopDeadlinesExpire : Obligations.StopDeadlinesExpire := by
  intro c s r due hr now closeBy
  refine ⟨fun h => ?doorFault, fun h => ⟨fun hp => ?alight, fun hp => ?board, fun hp => ?reopen⟩, fun h => ?noDoorFault,
    fun h => ?noAlight, fun h => ?noBoard, fun h => ?noReopen⟩
  case doorFault =>
    have taken := exec_doorFault hr h
    obtain ⟨own, other⟩ := s.expiry_records hr due fun r => { r with doorFault := true, closeDue := none }
    refine ⟨_, taken, (execDoorFault_touches c s _ taken).1, State.modRecord_now _ c _, own, ?_, other⟩
    rw [State.raise_attention, State.modRecord_lnk]
    rfl
  case alight =>
    have taken := exec_alightTimeExpiry hr hp h
    obtain ⟨own, other⟩ := s.expiry_records hr due fun r =>
      { r with phaseDue := none, close := some ⟨true, 0, false⟩, closeDue := closeBy }
    exact ⟨_, taken, (execAlightTimeExpiry_touches c s _ taken).1, State.modRecord_now _ c _, own, other⟩
  case board =>
    have taken := exec_boardTimeExpiry hr hp h
    obtain ⟨own, other⟩ := s.expiry_records hr due (·.closed (now + sec (s.par 0x82)))
    have record (k : Car) := congrArg CarState.record (State.deriveBoarding_car
      (((s.advance due).modRecord c (·.closed (now + sec (s.par 0x82)))).raise .stopPhase) k)
    refine ⟨_, taken, (execBoardTimeExpiry_touches c s _ taken).1, ?_, State.deriveBoarding_boardingInv _, ?_,
      (record c).trans own, (record _).trans other⟩
    · exact (State.deriveBoarding_now _).trans (State.modRecord_now _ c _)
    · rw [State.deriveBoarding_lnk, State.raise_attention, State.modRecord_lnk]
      rfl
  case reopen =>
    have taken := exec_reopenTimeExpiry hr hp h
    obtain ⟨own, other⟩ := s.expiry_records hr due fun r =>
      { r with reopening := false, phaseDue := none, close := some ⟨false, 0, false⟩, closeDue := closeBy }
    exact ⟨_, taken, (execReopenTimeExpiry_touches c s _ taken).1, State.modRecord_now _ c _, own, other⟩
  case noDoorFault => simp only [exec, execDoorFault, hr, Option.bind_some, h, onExpiry]
  case noAlight => simp only [exec, execAlightTimeExpiry, State.phaseDue_stopped hr h, onExpiry]
  case noBoard => simp only [exec, execBoardTimeExpiry, State.phaseDue_stopped hr h, onExpiry]
  case noReopen => simp only [exec, execReopenTimeExpiry, State.phaseDue_stopped hr h, onExpiry]

end Sys2Proof.Machine
end

-- ==== The response of a gate ====
section
/-! A gate's response from its frame to the answer it leaves at the gate: the CRC, the message, the gate as it is heard,
and the reply made pending (R154, R161 to R163, R192, section 11.5). -/

namespace Sys2Proof.Machine

/-! ### The frame -/

theorem withCrc_eq (l : List Byte) : ∃ x y, withCrc l = l ++ [x, y] := ⟨_, _, rfl⟩

/-- A frame built with its CRC passes the test of its CRC (R188). -/
theorem crcGood_withCrc (l : List Byte) : crcGood (withCrc l) = true := by
  obtain ⟨x, y, e⟩ := withCrc_eq l
  have bytes : (withCrc l).take ((withCrc l).length - 2) = l := by rw [e]; simp
  rw [crcGood, bytes, beq_self_eq_true, Bool.and_true, e]
  simp

theorem head_kind (head : Byte) : (head.extractLsb' 1 3).toNat = head.toNat / 2 % 8 := by
  rw [BitVec.extractLsb'_toNat, Nat.shiftRight_eq_div_pow]

theorem head_health (head : Byte) : (head.extractLsb' 6 2).toNat = head.toNat / 64 := by
  have := head.isLt
  rw [BitVec.extractLsb'_toNat, Nat.shiftRight_eq_div_pow]
  omega

/-- A frame built with its CRC is read as the head and the message it was built from (R192). -/
theorem gateFrameOf_withCrc (a : Nat) (ok : Bool) (addr head : Byte) (body : List Byte) :
    gateFrameOf a ok (withCrc ([addr, head] ++ body)) = if ok && addr.toNat == a then
        (gateMessageOf (head.toNat / 2 % 8) body).map fun m =>
          { toggle := head.getLsbD 0, health := healthOf (head.toNat / 64), message := m }
      else none := by
  have good := crcGood_withCrc ([addr, head] ++ body)
  obtain ⟨x, y, e⟩ := withCrc_eq ([addr, head] ++ body)
  have bytes : (body ++ [x, y]).take ((body ++ [x, y]).length - 2) = body := by simp
  rw [e] at good ⊢
  simp only [List.cons_append, List.nil_append] at good ⊢
  simp only [gateFrameOf, good, bytes, head_kind, head_health, Bool.and_true]
  simp

/-! ### The parts of a change that the gates and the claims need -/

section
variable {parts : List Part} {s t : State}

theorem keptBut.gate (h : keptBut parts s t) (hp : Part.gates ∉ parts) (k : Nat) : t.gate k = s.gate k := by
  have gates : s.adm.gates = t.adm.gates := h .gates hp
  rw [State.gate, ← gates, State.gate]

theorem keptBut.claims (h : keptBut parts s t) (hp : Part.claims ∉ parts) : t.adm.claims = s.adm.claims := by
  obtain ⟨claims, -⟩ : _ ∧ _ := h .claims hp
  exact claims.symm

theorem keptBut.claimOf (h : keptBut parts s t) (hp : Part.claims ∉ parts) (k : Nat) : t.claimOf k = s.claimOf k := by
  rw [State.claimOf, h.claims hp, State.claimOf]

theorem keptBut.weigh (h : keptBut parts s t) (hr : Part.reports ∉ parts) (hp : Part.params ∉ parts) (c : Car)
    (n : Nat) :
    t.weigh c n = s.weigh c n := by
  have params : s.params = t.params := h .params hp
  rw [State.weigh, h.report hr, State.par_congr params.symm, State.weigh]

theorem keptBut.loadOf (h : keptBut parts s t) (hp : Part.loads ∉ parts) (c : Car) : loadOf t c = loadOf s c := by
  obtain ⟨a, b⟩ : _ ∧ _ := h .loads hp
  cases c with
  | a => exact a.symm
  | b => exact b.symm

end

/-! ### The gate as it is heard -/

/-- A gate after a good response (R162). -/
def Gate.heard (g : Gate) (health : Health) : Gate := { g with misses := 0, online := true, health := health }

/-- The state in which a gate's message is taken: its response is no longer awaited, and it is ONLINE (R161, R162). -/
def State.heard (s : State) (a : Nat) (health : Health) : State := s.endAwait.goodResponse a health

theorem State.heard_touches (s : State) (a : Nat) (health : Health) :
    touches [.poll, .gates, .attention] s (s.heard a health) :=
  (s.endAwait_touches.trans (State.goodResponse_touches _ a health)).mono (by decide)

theorem State.goodResponse_gate {s : State} {a : Nat} {g : Gate} (hg : s.gate a = some g) (health : Health) :
    (s.goodResponse a health).gate a = some (g.heard health) := by
  have heard := s.modGate_gate_same a (·.heard health)
  rw [hg] at heard
  simp only [State.goodResponse, hg]
  split <;> exact heard

theorem State.heard_gate {s : State} {a : Nat} {g : Gate} (hg : s.gate a = some g) (health : Health) :
    (s.heard a health).gate a = some (g.heard health) :=
  State.goodResponse_gate (s := s.endAwait) hg health

/-! ### The message taken and answered -/

/-- The state that a taken message leaves with its reply (R163, R156). -/
def State.replied (a : Nat) (toggle : Bool) (p : State × Answer) : State := (p.1.answer a toggle p.2).deriveBoarding

theorem State.replied_touches (a : Nat) (toggle : Bool) (p : State × Answer) :
    touches [.gates, .boarding] p.1 (State.replied a toggle p) :=
  (p.1.modGate_touches a _).trans (State.deriveBoarding_touches _)

theorem State.replied_gate {a : Nat} {p : State × Answer} {g : Gate} (hg : p.1.gate a = some g) (toggle : Bool) :
    (State.replied a toggle p).gate a
      = some { g with toggle := some toggle, answer := p.2, replyPending := true } := by
  rw [State.replied, (State.deriveBoarding_touches _).1.gate (by decide), State.answer, State.modGate_gate_same, hg]
  rfl

/-- The gate that was heard is answered (R163). -/
theorem State.replied_answeredGate {a : Nat} {p : State × Answer} {g : Gate} (hg : p.1.gate a = some g)
    (online : g.online = true) (misses : g.misses = 0) (toggle : Bool) :
    answeredGate (State.replied a toggle p) a toggle p.2 :=
  ⟨_, State.replied_gate hg toggle, rfl, rfl, rfl, online, misses⟩

theorem State.replied_memory {a : Nat} {p : State × Answer} {g : Gate} (hg : p.1.gate a = some g) (toggle : Bool) :
    ((State.replied a toggle p).gate a).bind (·.memory) = g.memory := by
  rw [State.replied_gate hg]
  rfl

theorem State.takeMessage_passed {s : State} {a : Nat} {g : Gate} (hg : s.gate a = some g) {toggle : Bool}
    (new : g.toggle ≠ some toggle) (id : Byte) (n : Nat) :
    (s.takeMessage a toggle (.passed id n)).deriveBoarding = State.replied a toggle (s.passed a id n) := by
  have fresh : ((s.gate a).bind (·.toggle) == some toggle) = false := by simpa [hg] using new
  simp only [State.takeMessage, fresh]
  rfl

theorem State.takeMessage_abandoned {s : State} {a : Nat} {g : Gate} (hg : s.gate a = some g) {toggle : Bool}
    (new : g.toggle ≠ some toggle) (id : Byte) :
    (s.takeMessage a toggle (.abandoned id)).deriveBoarding = State.replied a toggle (s.abandoned a id) := by
  have fresh : ((s.gate a).bind (·.toggle) == some toggle) = false := by simpa [hg] using new
  simp only [State.takeMessage, fresh]
  rfl

/-! ### The response as a whole -/

theorem State.beginWaiting_of_due {s : State} (h : s.adm.pollDue.isSome) : s.beginWaiting = s :=
  if_neg (by simpa [Option.isNone_iff_eq_none, Option.isSome_iff_ne_none] using h)

theorem State.goodResponse_pollDue (s : State) (a : Nat) (health : Health) :
    (s.goodResponse a health).adm.pollDue = s.adm.pollDue := by
  obtain ⟨due, -⟩ : _ ∧ _ := (s.goodResponse_touches a health).1 .poll (by decide)
  exact due.symm

/-- Characters received while no gate is awaited are discarded (R160; log 24). -/
theorem exec_gateResponse_of_idle {s : State} (h : s.adm.polled = none) (ok : Bool) (frame : List Byte) :
    exec (.gateResponse ok frame) s = .next s := by
  simp only [exec, execGateResponse, h]

/-- A good response while the slot timer runs: the message is taken in the state in which the gate is heard (R161 to
R163). -/
theorem exec_gateResponse_of_good {s : State} {a : Nat} {ok : Bool} {frame : List Byte} {f : GateFrame}
    (polled : s.adm.polled = some a) (due : s.adm.pollDue.isSome) (good : gateFrameOf a ok frame = some f) :
    exec (.gateResponse ok frame) s
      = .next ((s.heard a f.health).takeMessage a f.toggle f.message).deriveBoarding := by
  have handled := (State.takeMessage_touches (s.heard a f.health) a f.toggle f.message).trans
    (State.deriveBoarding_touches _)
  obtain ⟨pollDue, -⟩ : _ ∧ _ := handled.1 .poll (by decide)
  have running : (((s.heard a f.health).takeMessage a f.toggle f.message).deriveBoarding).adm.pollDue.isSome := by
    rw [← pollDue, State.heard, State.goodResponse_pollDue]
    exact due
  simp only [exec, execGateResponse, polled, State.handleResponse, good]
  exact congrArg Host.Outcome.next (State.beginWaiting_of_due running)

section
variable {s : State} {a : Nat} {g : Gate} {head : Byte}

/-- A gate address is the byte of a frame that names it (R155). -/
theorem gateAddress_byte (ha : a ≤ 16) : (BitVec.ofNat 8 a).toNat = a := by
  rw [BitVec.toNat_ofNat]
  omega

/-- A taken PASSED (R163, R167 to R169, R192). -/
theorem exec_gateResponse_passed (hg : s.gate a = some g) (ha : a ≤ 16) (kind : head.toNat / 2 % 8 = 2)
    (polled : s.adm.polled = some a) (due : s.adm.pollDue.isSome) (new : g.toggle ≠ some (head.getLsbD 0))
    (id n : Byte) :
    exec (.gateResponse true (withCrc ([BitVec.ofNat 8 a, head] ++ [id, n]))) s
      = .next (State.replied a (head.getLsbD 0)
          ((s.heard a (healthOf (head.toNat / 64))).passed a id (min n.toNat 9))) := by
  have good := gateFrameOf_withCrc a true (BitVec.ofNat 8 a) head [id, n]
  rw [kind, gateAddress_byte ha, beq_self_eq_true, Bool.true_and, if_pos rfl] at good
  rw [exec_gateResponse_of_good polled due good]
  exact congrArg Host.Outcome.next (State.takeMessage_passed (State.heard_gate hg _) new id _)

/-- A taken ABANDONED (R163, R168, R192). -/
theorem exec_gateResponse_abandoned (hg : s.gate a = some g) (ha : a ≤ 16) (kind : head.toNat / 2 % 8 = 3)
    (polled : s.adm.polled = some a) (due : s.adm.pollDue.isSome) (new : g.toggle ≠ some (head.getLsbD 0)) (id : Byte) :
    exec (.gateResponse true (withCrc ([BitVec.ofNat 8 a, head] ++ [id]))) s
      = .next (State.replied a (head.getLsbD 0) ((s.heard a (healthOf (head.toNat / 64))).abandoned a id)) := by
  have good := gateFrameOf_withCrc a true (BitVec.ofNat 8 a) head [id]
  rw [kind, gateAddress_byte ha, beq_self_eq_true, Bool.true_and, if_pos rfl] at good
  rw [exec_gateResponse_of_good polled due good]
  exact congrArg Host.Outcome.next (State.takeMessage_abandoned (State.heard_gate hg _) new id)

end

end Sys2Proof.Machine
end

-- ==== The ends of a claim ====
section
/-! What passage, abandonment and lapse leave of a claim's stop record, its entitlement record and the claims list, and
what a late passage charges and counts (R117, R118, R123, R124, R149 to R151, R166 to R169). -/

namespace Sys2Proof.Machine

/-! ### The held count of a stop record -/

theorem StopRecord.closeConfirmed_iff (q : StopRecord) :
    (q.close.map (·.confirmed)).getD false = true ↔ ∃ y ∈ q.close, y.confirmed = true := by
  cases q.close <;> simp

/-- A record and its load figure after persons are returned from its held count (R117, R123, R124). -/
theorem State.lowerHeld_of_record {s : State} {c : Car} {q : StopRecord} (hq : s.record c = some q) (n : Nat) :
    (s.lowerHeld c n).record c = some (releasedRecord q n)
      ∧ fixesLoad c q (releasedRecord q n) s (s.lowerHeld c n) := by
  let p : StopRecord := { q with held := q.held - n }
  let u := s.modRecord c fun r => { r with held := r.held - n }
  have record : u.record c = some p := by rw [State.modRecord_record, hq]; rfl
  have lowered : s.lowerHeld c n = if p.phase = .closing ∧ p.reopening = false
      ∧ (p.close.map (·.confirmed)).getD false = true ∧ p.held = 0 then u.enterReady c else u := by
    rw [State.lowerHeld, State.tryReady, record]
  have confirmed := q.closeConfirmed_iff
  have same : (p.phase = .closing ∧ p.reopening = false ∧ (p.close.map (·.confirmed)).getD false = true ∧ p.held = 0)
      ↔ (q.phase = .closing ∧ q.reopening = false ∧ (∃ y ∈ q.close, y.confirmed = true) ∧ q.held - n = 0) := by
    rw [← confirmed]
  rw [lowered, releasedRecord, if_congr same rfl rfl]
  split
  case isTrue waited =>
    obtain ⟨own, load, raised⟩ := State.enterReady_loads record
    obtain ⟨-, -, -, none⟩ := waited
    have weigh := (s.modRecord_touches c fun r => { r with held := r.held - n }).1.weigh (by decide) (by decide) c
    rw [weigh] at load
    have zero : p.held = 0 := none
    refine ⟨?_, fun _ _ => ⟨raised, ?_⟩⟩
    · rw [own, zero]
    · cases c <;> exact load
  case isFalse waits => exact ⟨record, fun away ready => absurd ready away⟩

theorem State.lowerHeld_other (s : State) (c : Car) (n : Nat) :
    (s.lowerHeld c n).record (otherCar c) = s.record (otherCar c) := by
  refine congrArg CarState.record (((State.tryReady_otherCar _ c)).trans (s.modRecord_otherCar c _))

/-! ### The commit -/

/-- A record that a commit leaves, none where the commit consumes it (R149, R151). -/
def State.committed (s : State) (station n : Nat) (r : EntRecord) : Option EntRecord :=
  let q := commitRecord s.clock station n r
  if q.consumed then none else some q

/-- A slot after a commit on a slot's record (R149, R151). -/
theorem State.commitSlot_entGet (s : State) {slot : Nat} {r : EntRecord} (hr : entGet s.ent.table slot = some r)
    (station n m : Nat) :
    entGet (s.commitSlot slot station n).ent.table m
      = if m = slot then s.committed station n r else entGet s.ent.table m := by
  simp only [State.commitSlot, hr, State.setEnt_table, State.committed]
  cases (commitRecord s.clock station n r).consumed with
  | true => exact entGet_entErase _ _ _
  | false =>
    simp only [Bool.false_eq_true, if_false, entGet_entModify]
    split
    case isTrue here => rw [here, hr]; rfl
    case isFalse => rfl

theorem EntRecord.consumed_iff (r : EntRecord) :
    r.consumed = true ↔ r.kind = .single ∨ (r.kind = .multi ∧ r.rides = some 0) := by
  unfold EntRecord.consumed
  cases r.kind <;> simp

/-- The daily count after a commit: a PERIOD record's rises, from 0 on a new day, while the clock is set (R149). -/
theorem commitRecord_daily (s : State) (station n : Nat) (r : EntRecord) :
    (commitRecord s.clock station n r).daily = if r.kind = .period ∧ s.tsr.clockSet = true then
        r.daily.map fun d => ⟨d.cap, min 15 ((if d.rideDay = some s.tsr.day then d.today else 0) + 1), some s.tsr.day⟩
      else r.daily := by
  simp only [commitRecord, State.clock, State.time]
  cases r.kind with
  | single => rfl
  | multi => rfl
  | staff => rfl
  | period =>
    cases s.tsr.clockSet with
    | false => rfl
    | true =>
      cases r.daily with
      | none => rfl
      | some d => by_cases today : d.rideDay = some s.tsr.day <;> simp [today]

theorem commitRecord_stamp (s : State) (station n : Nat) (r : EntRecord) :
    (commitRecord s.clock station n r).stamp
      = if s.tsr.clockSet then some ⟨station, s.tsr.day, s.tsr.minute⟩ else r.stamp := by
  simp only [commitRecord, State.clock, State.time]
  cases s.tsr.clockSet <;> rfl

/-- A commit on a record without a claim leaves what the rules say (R149, R151). -/
theorem State.committed_eq (s : State) (station n : Nat) {r : EntRecord} (free : r.claim = none) :
    s.committed station n r = afterCommit s station n r := by
  have record : commitRecord s.clock station n r = { r with
      claim := none
      rides := if r.kind = .multi then r.rides.map (· - n) else r.rides
      daily := (commitRecord s.clock station n r).daily
      stamp := (commitRecord s.clock station n r).stamp } := by
    rw [← free]
    rfl
  rw [commitRecord_daily, commitRecord_stamp] at record
  rw [State.committed, record, afterCommit]
  exact if_congr (EntRecord.consumed_iff _) rfl rfl

/-- A commit reads the clock alone (R149). -/
theorem keptBut.afterCommit {parts : List Part} {s t : State} (h : keptBut parts s t) (hp : Part.clock ∉ parts)
    (station n : Nat) (r : EntRecord) : afterCommit t station n r = afterCommit s station n r := by
  obtain ⟨clockSet, day, minute, -⟩ : _ ∧ _ ∧ _ ∧ _ := h .clock hp
  simp only [Machine.afterCommit, clockSet, day, minute]

theorem State.detachClaim_entGet (s : State) (slot m : Nat) :
    entGet (s.detachClaim slot).ent.table m
      = if m = slot then (entGet s.ent.table m).map fun r => { r with claim := none } else entGet s.ent.table m := by
  rw [State.detachClaim, State.setEnt_table, entGet_entModify]

/-- A slot after the on-time commit on a slot's record (R149, R151). -/
theorem State.onTimeCommit_entGet (s : State) {slot : Nat} {r : EntRecord} (hr : entGet s.ent.table slot = some r)
    (station n m : Nat) :
    entGet (s.onTimeCommit slot station n).ent.table m
      = if m = slot then Machine.afterCommit s station n r else entGet s.ent.table m := by
  have detached : entGet (s.detachClaim slot).ent.table slot = some { r with claim := none } := by
    rw [State.detachClaim_entGet, if_pos rfl, hr, Option.map_some]
  rw [State.onTimeCommit, State.commitSlot_entGet _ detached, State.committed_eq _ _ _ rfl,
    (s.detachClaim_touches slot).1.afterCommit (by decide)]
  split
  · rfl
  case isFalse away => rw [State.detachClaim_entGet, if_neg away]

theorem entGet_of_entFind {t : EntTable} {m : Media} {slot : Nat} {r : EntRecord} (h : entFind t m = some (slot, r)) :
    entGet t slot = some r := by
  obtain ⟨k, -, found⟩ := List.exists_of_findSome?_eq_some h
  cases hk : entGet t k with
  | none => simp [hk] at found
  | some q =>
    simp only [hk, Option.ite_none_right_eq_some, Option.some.injEq, Prod.mk.injEq] at found
    obtain ⟨-, rfl, rfl⟩ := found
    exact hk

/-! ### The count of boarded persons -/

/-- A passage of n persons is counted: the record, and the admitted-run count of its car (R117, R118). -/
theorem State.addBoarded_of_record {s : State} {c : Car} {q : StopRecord} (hq : s.record c = some q) (n : Nat)
    (late : Bool) :
    let took := min n (250 - q.boarded)
    (s.addBoarded c n late).car c = { s.car c with
        admitted := min 65535 ((s.car c).admitted + took)
        record := some { q with boarded := q.boarded + took, late := if late then q.late + took else q.late } }
      ∧ (s.addBoarded c n late).car (otherCar c) = s.car (otherCar c) := by
  simp only [State.addBoarded, hq, State.setCar_car, State.setCar_other, and_self]

/-! ### What every end of a claim leaves -/

/-- The end of a claim with a stop record q, changed to p before it ends or not: the persons return from the held count,
the claim leaves the list, and no other slot of the table changes (R117, R124, R166 to R168). -/
structure ClaimEnded (x : Claim) (q p : StopRecord) (s t : State) : Prop where
  record : t.record x.car = some (releasedRecord p x.persons)
  other : t.record (otherCar x.car) = s.record (otherCar x.car)
  load : fixesLoad x.car q (releasedRecord p x.persons) s t
  claims : t.adm.claims = s.adm.claims.filter fun y => y.id != x.id
  slots : ∀ m, m ≠ x.slot → entGet t.ent.table m = entGet s.ent.table m

section
variable {x : Claim} {q p : StopRecord} {s t u : State} {parts : List Part}

theorem fixesLoad.of_touches {c : Car} (h : fixesLoad c q p s t) (k : touches parts t u) (hp : Part.loads ∉ parts) :
    fixesLoad c q p s u := fun away ready => by
  obtain ⟨raised, load⟩ := h away ready
  exact ⟨k.2.hasAttention raised, (k.1.loadOf hp c).trans load⟩

/-- What follows the end leaves these parts alone. -/
theorem ClaimEnded.of_touches (h : ClaimEnded x q p s t) (k : touches parts t u)
    (hp : ∀ y ∈ [Part.records, .loads, .claims, .ent], y ∉ parts) : ClaimEnded x q p s u where
  record := (k.1.record (hp _ (by decide)) _).trans h.record
  other := (k.1.record (hp _ (by decide)) _).trans h.other
  load := h.load.of_touches k (hp _ (by decide))
  claims := (k.1.claims (hp _ (by decide))).trans h.claims
  slots m hm := by
    have ent : t.ent = u.ent := k.1 .ent (hp _ (by decide))
    rw [← ent]
    exact h.slots m hm

/-- What precedes the end leaves these parts, the phase of the claim's record and the other car's record alone. -/
theorem ClaimEnded.from_keptBut {q' : StopRecord} (h : ClaimEnded x q' p t u) (k : keptBut parts s t)
    (hp : ∀ y ∈ [Part.reports, .params, .claims, .ent], y ∉ parts) (phase : q'.phase = q.phase)
    (other : t.record (otherCar x.car) = s.record (otherCar x.car)) : ClaimEnded x q p s u where
  record := h.record
  other := h.other.trans other
  load away ready := by
    obtain ⟨raised, load⟩ := h.load (phase ▸ away) ready
    rw [k.weigh (hp _ (by decide)) (hp _ (by decide))] at load
    exact ⟨raised, load⟩
  claims := by rw [h.claims, k.claims (hp _ (by decide))]
  slots m hm := by
    have ent : s.ent = t.ent := k .ent (hp _ (by decide))
    rw [h.slots m hm, ent]

/-- Where the persons have returned from the held count, a change of the claim's own slot and the claim's leaving of the
list end it. -/
theorem State.dropClaim_ended (hq : s.record x.car = some q)
    (k : touches [.ent] (s.lowerHeld x.car x.persons) t)
    (slots : ∀ m, m ≠ x.slot → entGet t.ent.table m = entGet (s.lowerHeld x.car x.persons).ent.table m) :
    ClaimEnded x q q s (t.dropClaim x.id) := by
  obtain ⟨record, load⟩ := State.lowerHeld_of_record hq x.persons
  have lowered := s.lowerHeld_touches x.car x.persons
  have ent : s.ent = (s.lowerHeld x.car x.persons).ent := lowered.1 .ent (by decide)
  have claims := (lowered.trans k).1.claims (by decide)
  have after := k.trans (t.dropClaim_touches x.id)
  exact
    { record := (after.1.record (by decide) _).trans record
      other := (after.1.record (by decide) _).trans (s.lowerHeld_other x.car x.persons)
      load := load.of_touches after (by decide)
      claims := by rw [← claims]; rfl
      slots := fun m hm => (slots m hm).trans (by rw [ent]) }

end

/-! ### Abandonment, passage and lapse -/

theorem State.abandonClaim_touchesLess (s : State) (x : Claim) :
    touches [.records, .loads, .attention, .ent, .claims] s (s.abandonClaim x) :=
  ((s.lowerHeld_touches x.car x.persons).trans (State.detachClaim_touches _ x.slot)).trans
    (State.dropClaim_touches _ x.id)

/-- A claim that ends without a passage (R168). -/
theorem State.abandonClaim_ended {s : State} {x : Claim} {q : StopRecord} (hq : s.record x.car = some q) :
    ClaimEnded x q q s (s.abandonClaim x) :=
  State.dropClaim_ended hq (State.detachClaim_touches _ x.slot) fun m hm =>
    (State.detachClaim_entGet _ x.slot m).trans (if_neg hm)

theorem State.abandonClaim_entGet (s : State) (x : Claim) :
    entGet (s.abandonClaim x).ent.table x.slot
      = (entGet s.ent.table x.slot).map fun r => { r with claim := none } := by
  have ent : s.ent = (s.lowerHeld x.car x.persons).ent := (s.lowerHeld_touches x.car x.persons).1 .ent (by decide)
  rw [ent]
  exact (State.detachClaim_entGet _ x.slot x.slot).trans (if_pos rfl)

/-- The memory that a claim with a stop record leaves at its gate (R166). -/
def State.presentMemory (s : State) (x : Claim) : Memory := { s.absentMemory x with record := some x.car }

/-- A lapse ends the claim as if it were abandoned, and the gate remembers it (R166). -/
theorem State.lapseClaim_of_record {s : State} {x : Claim} {q : StopRecord} (hq : s.record x.car = some q) :
    s.lapseClaim x = (s.abandonClaim x).modGate x.gate fun g => { g with memory := some (s.presentMemory x) } := by
  simp only [State.lapseClaim, hq]
  rfl

/-- A stop record with a passage of k persons counted (R117). -/
def StopRecord.passedBy (q : StopRecord) (k : Nat) : StopRecord :=
  { q with boarded := q.boarded + min k (250 - q.boarded) }

theorem State.settleClaim_touchesLess (s : State) (a : Nat) (x : Claim) (n : Nat) :
    touches [.records, .admitted, .loads, .attention, .ent, .claims] s (s.settleClaim a x n) :=
  ((((s.addBoarded_touches _ _ _).trans (State.lowerHeld_touches _ _ _)).trans
    (State.onTimeCommit_touches _ _ _ _)).trans (State.dropClaim_touches _ _)).mono (by decide)

section
variable {s : State} {x : Claim} {q : StopRecord} {r : EntRecord} (a n : Nat)

/-- A passage counts its persons, commits the ride and then ends the claim (R167). -/
theorem State.settleClaim_ended (hq : s.record x.car = some q) (hr : entGet s.ent.table x.slot = some r) :
    ClaimEnded x q (q.passedBy (min n x.persons)) s (s.settleClaim a x n) := by
  let u := s.addBoarded x.car (min n x.persons) false
  obtain ⟨own, other⟩ := State.addBoarded_of_record hq (min n x.persons) false
  have record : u.record x.car = some (q.passedBy (min n x.persons)) := congrArg CarState.record own
  have counted := s.addBoarded_touches x.car (min n x.persons) false
  have lowered := counted.trans (u.lowerHeld_touches x.car x.persons)
  have ent : s.ent = (u.lowerHeld x.car x.persons).ent := lowered.1 .ent (by decide)
  have held : entGet (u.lowerHeld x.car x.persons).ent.table x.slot = some r := by rw [← ent, hr]
  have ended := State.dropClaim_ended record
    (State.onTimeCommit_touches _ x.slot (((s.gate a).bind (·.station)).getD 0) (min n x.persons)) fun m hm =>
      (State.onTimeCommit_entGet _ held _ _ m).trans (if_neg hm)
  exact ended.from_keptBut counted.1 (by decide) rfl (congrArg CarState.record other)

theorem State.settleClaim_entGet (hr : entGet s.ent.table x.slot = some r) :
    entGet (s.settleClaim a x n).ent.table x.slot
      = afterCommit s (((s.gate a).bind (·.station)).getD 0) (min n x.persons) r := by
  let u := s.addBoarded x.car (min n x.persons) false
  have lowered := (s.addBoarded_touches x.car (min n x.persons) false).trans (u.lowerHeld_touches x.car x.persons)
  have ent : s.ent = (u.lowerHeld x.car x.persons).ent := lowered.1 .ent (by decide)
  have held : entGet (u.lowerHeld x.car x.persons).ent.table x.slot = some r := by rw [← ent, hr]
  rw [← lowered.1.afterCommit (by decide)]
  exact (State.onTimeCommit_entGet _ held _ _ x.slot).trans (if_pos rfl)

theorem State.settleClaim_admitted (hq : s.record x.car = some q) :
    ((s.settleClaim a x n).car x.car).admitted
      = min 65535 ((s.car x.car).admitted + min (min n x.persons) (250 - q.boarded)) := by
  let u := s.addBoarded x.car (min n x.persons) false
  obtain ⟨own, -⟩ := State.addBoarded_of_record hq (min n x.persons) false
  have after := ((u.lowerHeld_touches x.car x.persons).trans (State.onTimeCommit_touches _ x.slot
    (((s.gate a).bind (·.station)).getD 0) (min n x.persons))).trans (State.dropClaim_touches _ x.id)
  exact (after.1.admitted (by decide) _).trans (congrArg CarState.admitted own)

end

/-! ### A late passage -/

/-- A late passage on a memory counts into a car's stop record (R169). -/
def Memory.counts (m : Memory) (c : Car) (q : StopRecord) : Bool :=
  decide (m.record = some c ∧ (q.phase = .boarding ∨ q.phase = .closing))

/-- A stop record with a late passage of k persons counted (R117, R169). -/
def StopRecord.latePassedBy (q : StopRecord) (k : Nat) : StopRecord :=
  { q with boarded := q.boarded + min k (250 - q.boarded), late := q.late + min k (250 - q.boarded) }

theorem State.countLate_touches (s : State) (m : Memory) (k : Nat) :
    touches [.records, .admitted] s (s.countLate m k) := by
  unfold State.countLate
  split
  · exact touches.ite (s.addBoarded_touches _ k true) (touches.refl _ s)
  · exact touches.refl _ s

theorem State.countLate_of_counts {s : State} {m : Memory} {c : Car} {q : StopRecord} (hq : s.record c = some q)
    (h : m.counts c q = true) (k : Nat) : s.countLate m k = s.addBoarded c k true := by
  obtain ⟨named, phase⟩ := of_decide_eq_true h
  simp only [State.countLate, named, State.inPhase_of_record hq]
  exact if_pos (by simpa using phase)

/-- A late passage leaves a car whose stop record it does not count into (R169). -/
theorem State.countLate_of_not_counts {s : State} {m : Memory} {c : Car}
    (h : ∀ q, s.record c = some q → m.counts c q = false) (k : Nat) : (s.countLate m k).car c = s.car c := by
  unfold State.countLate
  split
  case h_2 => rfl
  case h_1 e named =>
    split
    case isFalse => rfl
    case isTrue phase =>
      have away : c ≠ e := by
        rintro rfl
        cases hq : s.record c with
        | none => simp [State.inPhase, hq] at phase
        | some q =>
          have := h q hq
          simp [Memory.counts, named] at this
          simp [State.inPhase_of_record hq, this] at phase
      rw [otherCar_of_ne away, State.addBoarded]
      split
      · rfl
      · exact State.setCar_other _ _ _

theorem State.countLate_record (s : State) (m : Memory) (k : Nat) (c : Car) :
    (s.countLate m k).record c = (s.record c).map fun q => if m.counts c q then q.latePassedBy k else q := by
  cases hq : s.record c with
  | none =>
    refine (congrArg CarState.record (State.countLate_of_not_counts (fun q h => ?_) k)).trans hq
    rw [hq] at h
    cases h
  | some q =>
    rw [Option.map_some]
    cases counts : m.counts c q with
    | true =>
      rw [State.countLate_of_counts hq counts, State.record, (State.addBoarded_of_record hq k true).1]
      rfl
    | false =>
      refine (congrArg CarState.record (State.countLate_of_not_counts (fun p h => ?_) k)).trans hq
      obtain rfl : q = p := Option.some.inj (hq.symm.trans h)
      exact counts

theorem State.lateCommit_of_absent {s : State} {m : Media} (h : entFind s.ent.table m = none) (station n : Nat) :
    s.lateCommit m station n = s := by
  simp only [State.lateCommit, h]

theorem State.lateCommit_of_claimed {s : State} {m : Media} {slot : Nat} {r : EntRecord}
    (h : entFind s.ent.table m = some (slot, r)) (claimed : r.claim.isSome) (station n : Nat) :
    s.lateCommit m station n = s := by
  simp only [State.lateCommit, h, claimed, if_true]

/-- The late commit charges the record that now holds the number, where it carries no claim (R150). -/
theorem State.lateCommit_entGet {s : State} {m : Media} {slot : Nat} {r : EntRecord}
    (h : entFind s.ent.table m = some (slot, r)) (free : r.claim = none) (station n k : Nat) :
    entGet (s.lateCommit m station n).ent.table k
      = if k = slot then afterCommit s station n r else entGet s.ent.table k := by
  have charged : s.lateCommit m station n = s.commitSlot slot station n := by
    simp only [State.lateCommit, h, free, Option.isSome_none, Bool.false_eq_true, if_false]
  rw [charged, State.commitSlot_entGet s (entGet_of_entFind h), State.committed_eq _ _ _ free]

/-- What a late passage of k persons on a memory leaves (R117, R150, R169). -/
structure LatePassed (m : Memory) (k : Nat) (s t : State) : Prop where
  claims : t.adm.claims = s.adm.claims
  record (c : Car) : t.record c = (s.record c).map fun q => if m.counts c q then q.latePassedBy k else q
  admitted (c : Car) : ∀ q, s.record c = some q → m.counts c q = true →
    (t.car c).admitted = min 65535 ((s.car c).admitted + min k (250 - q.boarded))
  uncounted (c : Car) : (∀ q, s.record c = some q → m.counts c q = false) → (t.car c).admitted = (s.car c).admitted
  absent : entFind s.ent.table m.media = none → t.ent = s.ent
  claimed : ∀ slot r, entFind s.ent.table m.media = some (slot, r) → r.claim.isSome → t.ent = s.ent
  charged : ∀ slot r, entFind s.ent.table m.media = some (slot, r) → r.claim = none → ∀ j,
    entGet t.ent.table j = if j = slot then afterCommit s m.station k r else entGet s.ent.table j

theorem State.latePassage_passed (s : State) (a : Nat) (m : Memory) (n : Nat) :
    LatePassed m (min n m.persons) s (s.latePassage a m n) := by
  let k := min n m.persons
  let u := s.countLate m k
  have counted := s.countLate_touches m k
  have committed := u.lateCommit_touches m.media m.station k
  have cleared := (u.lateCommit m.media m.station k).modGate_touches a fun g => { g with memory := none }
  have after := committed.trans cleared
  have ent : s.ent = u.ent := counted.1 .ent (by decide)
  have kept : (u.lateCommit m.media m.station k).ent = (s.latePassage a m n).ent := cleared.1 .ent (by decide)
  exact
    { claims := (counted.trans after).1.claims (by decide)
      record := fun c => (after.1.record (by decide) c).trans (s.countLate_record m k c)
      admitted := fun c q hq counts => by
        have counts : u.car c = _ := (congrArg (State.car · c) (State.countLate_of_counts hq counts k)).trans
          (State.addBoarded_of_record hq k true).1
        exact (after.1.admitted (by decide) c).trans (congrArg CarState.admitted counts)
      uncounted := fun c none =>
        (after.1.admitted (by decide) c).trans (congrArg CarState.admitted (State.countLate_of_not_counts none k))
      absent := fun none => by
        rw [ent] at none
        rw [← kept, State.lateCommit_of_absent none, ent]
      claimed := fun slot r found held => by
        rw [ent] at found
        rw [← kept, State.lateCommit_of_claimed found held, ent]
      charged := fun slot r found free j => by
        rw [ent] at found
        rw [← kept, State.lateCommit_entGet found free, counted.1.afterCommit (by decide), ent] }

/-- A late passage between changes that leave the cars, the table, the claims and the clock. -/
theorem LatePassed.between {m : Memory} {k : Nat} {before after : List Part} {s v u t : State} (h : LatePassed m k v u)
    (first : keptBut before s v) (last : keptBut after u t)
    (hb : ∀ y ∈ [Part.records, .admitted, .ent, .claims, .clock], y ∉ before)
    (ha : ∀ y ∈ [Part.records, .admitted, .ent, .claims], y ∉ after) : LatePassed m k s t := by
  have record (c : Car) := first.record (hb _ (by decide)) c
  have admitted (c : Car) := first.admitted (hb _ (by decide)) c
  have ent : s.ent = v.ent := first .ent (hb _ (by decide))
  have kept : u.ent = t.ent := last .ent (ha _ (by decide))
  exact
    { claims := (last.claims (ha _ (by decide))).trans (h.claims.trans (first.claims (hb _ (by decide))))
      record := fun c => by rw [last.record (ha _ (by decide)), h.record, record]
      admitted := fun c q hq counts => by
        rw [last.admitted (ha _ (by decide)), h.admitted c q ((record c).trans hq) counts, admitted]
      uncounted := fun c none => by
        rw [last.admitted (ha _ (by decide)), h.uncounted c (by rwa [record]), admitted]
      absent := fun none => by rw [← kept, h.absent (ent ▸ none), ent]
      claimed := fun slot r found held => by rw [← kept, h.claimed slot r (ent ▸ found) held, ent]
      charged := fun slot r found free j => by
        rw [← kept, h.charged slot r (ent ▸ found) free j, first.afterCommit (hb _ (by decide)), ent] }

theorem State.latePassage_gate {s : State} {a : Nat} {g : Gate} (hg : s.gate a = some g) (m : Memory) (n : Nat) :
    (s.latePassage a m n).gate a = some { g with memory := none } := by
  have kept := ((s.countLate_touches m (min n m.persons)).trans
    (State.lateCommit_touches _ m.media m.station (min n m.persons))).1.gate (by decide) a
  rw [State.latePassage, State.clearMemory, State.modGate_gate_same, kept, hg]
  rfl

/-! ### Whose claim, whose memory -/

section
variable {s : State} {a : Nat} {g : Gate} {x : Claim} {id : Byte}

theorem State.ownClaim_of_claim (hx : s.claimOf a = some x) : s.ownClaim a x.id = some x := by
  simp [State.ownClaim, hx]

theorem State.ownClaim_of_foreign (h : ∀ x ∈ s.claimOf a, x.id ≠ id) : s.ownClaim a id = none := by
  simpa [State.ownClaim, Option.filter_eq_none_iff] using h

theorem State.ownMemory_of_gate (hg : s.gate a = some g) (id : Byte) :
    s.ownMemory a id = g.memory.filter fun m => m.id == id := by
  rw [State.ownMemory, hg]
  rfl

theorem State.claimOf_gate (hx : s.claimOf a = some x) : x.gate = a := by
  simpa using List.find?_some hx

/-- ABANDONED of a claim that is not the gate's own clears the gate's memory where it bears the id (R168). -/
theorem State.abandoned_of_foreign (h : s.ownClaim a id = none) (hg : s.gate a = some g) :
    ∃ u, s.abandoned a id = (u, .noAnswer) ∧ touches [.gates] s u
      ∧ u.gate a = some { g with memory := g.memory.filter fun m => m.id != id } := by
  simp only [State.abandoned, h, State.ownMemory_of_gate hg]
  refine ⟨_, rfl, touches.ite (s.modGate_touches a _) (touches.refl _ s), ?_⟩
  cases hm : g.memory with
  | none => rw [if_neg (by simp), hg, Option.filter_none, ← hm]
  | some m =>
    rw [Option.filter_some, Option.filter_some]
    by_cases same : m.id = id
    · rw [if_pos (by simp [same]), State.clearMemory, State.modGate_gate_same, hg, if_neg (by simp [same])]
      rfl
    · rw [if_neg (by simp [same]), hg, if_pos (by simp [same]), ← hm]

end

end Sys2Proof.Machine
end

-- ==== The messages that end a claim ====
section
/-! PASSED, ABANDONED and CLAIM_LAPSE as a whole: what each leaves of a claim, of a gate's memory and of the answer
(R163, R166 to R169). -/

namespace Sys2Proof.Machine

/-! ### The end of the gate's own claim -/

section
variable {s u : State} {a : Nat} {g : Gate} {x : Claim} {q p : StopRecord}

/-- The end of a claim by a message is that end in the state in which the gate was heard, with the gate answered. -/
theorem ClaimEnded.replied {health : Health} (h : ClaimEnded x q p (s.heard a health) u) (toggle : Bool) (y : Answer) :
    ClaimEnded x q p s (State.replied a toggle (u, y)) :=
  have heard := (s.heard_touches a health).1
  (h.from_keptBut heard (by decide) rfl (heard.record (by decide) _)).of_touches (State.replied_touches a toggle (u, y))
    (by decide)

/-- A gate that is answered after changes that leave the gates keeps its memory (R163). -/
theorem State.replied_of_keptBut {parts : List Part} {health : Health} (hg : s.gate a = some g)
    (h : keptBut parts (s.heard a health) u) (hp : Part.gates ∉ parts) (toggle : Bool) (y : Answer) :
    answeredGate (State.replied a toggle (u, y)) a toggle y
      ∧ ((State.replied a toggle (u, y)).gate a).bind (·.memory) = g.memory := by
  have heard : u.gate a = some (g.heard health) := (h.gate hp a).trans (State.heard_gate hg health)
  exact ⟨State.replied_answeredGate (p := (u, y)) heard rfl rfl toggle, State.replied_memory (p := (u, y)) heard toggle⟩

theorem State.replied_admitted {parts : List Part} (h : keptBut parts s u) (hp : Part.admitted ∉ parts) (toggle : Bool)
    (y : Answer) (c : Car) : ((State.replied a toggle (u, y)).car c).admitted = (s.car c).admitted :=
  ((State.replied_touches a toggle (u, y)).1.admitted (by decide) c).trans (h.admitted hp c)

theorem State.replied_entGet (toggle : Bool) (y : Answer) (k : Nat) :
    entGet (State.replied a toggle (u, y)).ent.table k = entGet u.ent.table k := by
  have ent : u.ent = (State.replied a toggle (u, y)).ent := (State.replied_touches a toggle (u, y)).1 .ent (by decide)
  rw [← ent]

/-- A claim that the gate's message ends without a passage (R168). -/
theorem State.abandonClaim_replied (health : Health) (toggle : Bool) (hg : s.gate a = some g)
    (hq : s.record x.car = some q) {r : EntRecord} (hr : entGet s.ent.table x.slot = some r) :
    let t := State.replied a toggle ((s.heard a health).abandonClaim x, .noAnswer)
    ClaimEnded x q q s t ∧ answeredGate t a toggle .noAnswer
      ∧ entGet t.ent.table x.slot = some { r with claim := none } ∧ (t.car x.car).admitted = (s.car x.car).admitted
      ∧ (t.gate a).bind (·.memory) = g.memory := by
  have heard := s.heard_touches a health
  have ended := (s.heard a health).abandonClaim_touchesLess x
  have ent : s.ent = (s.heard a health).ent := heard.1 .ent (by decide)
  obtain ⟨answered, memory⟩ := State.replied_of_keptBut hg ended.1 (by decide) toggle .noAnswer
  refine ⟨(State.abandonClaim_ended ((heard.1.record (by decide) _).trans hq)).replied toggle .noAnswer, answered, ?_,
    State.replied_admitted (heard.trans ended).1 (by decide) toggle .noAnswer _, memory⟩
  rw [State.replied_entGet, State.abandonClaim_entGet, ← ent, hr]
  rfl

/-- A claim that a passage settles (R167). -/
theorem State.settleClaim_replied (health : Health) (toggle : Bool) (hg : s.gate a = some g)
    (hq : s.record x.car = some q) {r : EntRecord} (hr : entGet s.ent.table x.slot = some r) (n : Nat) :
    let t := State.replied a toggle ((s.heard a health).settleClaim a x n, .noAnswer)
    ClaimEnded x q (q.passedBy (min n x.persons)) s t ∧ answeredGate t a toggle .noAnswer
      ∧ (t.car x.car).admitted
          = min 65535 ((s.car x.car).admitted + min (min n x.persons) (250 - q.boarded))
      ∧ entGet t.ent.table x.slot = afterCommit s (g.station.getD 0) (min n x.persons) r := by
  have heard := s.heard_touches a health
  have settled := (s.heard a health).settleClaim_touchesLess a x n
  have ent : s.ent = (s.heard a health).ent := heard.1 .ent (by decide)
  have record := (heard.1.record (by decide) x.car).trans hq
  have slot : entGet (s.heard a health).ent.table x.slot = some r := by rw [← ent, hr]
  have station : ((s.heard a health).gate a).bind (·.station) = g.station := by rw [State.heard_gate hg]; rfl
  obtain ⟨answered, -⟩ := State.replied_of_keptBut hg settled.1 (by decide) toggle .noAnswer
  refine ⟨(State.settleClaim_ended a n record slot).replied toggle .noAnswer, answered, ?_, ?_⟩
  · refine ((State.replied_touches a toggle _).1.admitted (by decide) x.car).trans ?_
    rw [State.settleClaim_admitted a n record, heard.1.admitted (by decide)]
  · rw [State.replied_entGet, State.settleClaim_entGet a n slot, station, heard.1.afterCommit (by decide)]

end

/-! ### The lapse of a claim -/

theorem exec_claimLapse {s : State} {x : Claim} {id : Byte} (h : s.claimById id = some x) :
    exec (.claimLapse id) s = .next ((s.advance x.due).lapseClaim x).deriveBoarding := by
  simp only [exec, execClaimLapse, h]

/-- A claim that lapses at its deadline with its stop record present (R166). -/
theorem State.lapseClaim_derived {s : State} {a : Nat} {g : Gate} {x : Claim} {q : StopRecord} {r : EntRecord}
    (hg : s.gate a = some g) (hx : x.gate = a) (hq : s.record x.car = some q)
    (hr : entGet s.ent.table x.slot = some r) :
    let t := ((s.advance x.due).lapseClaim x).deriveBoarding
    ClaimEnded x q q s t ∧ t.now = max s.now x.due ∧ entGet t.ent.table x.slot = some { r with claim := none }
      ∧ (t.car x.car).admitted = (s.car x.car).admitted
      ∧ t.gate a = some { g with memory := some ⟨x.id, x.media, x.persons, g.station.getD 0, some x.car⟩ } := by
  subst hx
  have reached := s.advance_touches x.due
  have ended := (s.advance x.due).abandonClaim_touchesLess x
  have record := (s.advance_record x.due x.car).trans hq
  let f : Gate → Gate := fun g => { g with memory := some ((s.advance x.due).presentMemory x) }
  have remembered := (((s.advance x.due).abandonClaim x).modGate_touches x.gate f).trans
    (State.deriveBoarding_touches _)
  have gate : (s.advance x.due).gate x.gate = some g := hg
  have memory : (s.advance x.due).presentMemory x
      = ⟨x.id, x.media, x.persons, g.station.getD 0, some x.car⟩ := by
    simp only [State.presentMemory, State.absentMemory, gate, Option.bind_some]
  rw [State.lapseClaim_of_record record]
  refine ⟨((State.abandonClaim_ended record).from_keptBut reached.1 (by decide) rfl
    (s.advance_record _ _)).of_touches remembered (by decide), ?_, ?_, ?_, ?_⟩
  · have now : _ = _ := (ended.trans remembered).1 .time (by decide)
    exact now.symm
  · have ent : ((s.advance x.due).abandonClaim x).ent = _ := remembered.1 .ent (by decide)
    rw [← ent, State.abandonClaim_entGet, State.advance_ent, hr]
    rfl
  · exact ((reached.trans ended).trans remembered).1.admitted (by decide) _
  · rw [(State.deriveBoarding_touches _).1.gate (by decide), State.modGate_gate_same, ended.1.gate (by decide), gate,
      ← memory]
    rfl

/-! ### Messages with the id of no open claim of the gate -/

section
variable {s : State} {a : Nat} {g : Gate} {id : Byte}

theorem State.heard_ownClaim (health : Health) (h : ∀ x ∈ s.claimOf a, x.id ≠ id) :
    (s.heard a health).ownClaim a id = none := by
  refine State.ownClaim_of_foreign ?_
  rwa [(s.heard_touches a health).1.claimOf (by decide)]

/-- PASSED with the id of the gate's memory is a late passage (R169). -/
theorem State.passed_late {m : Memory} {n : Nat} (h : s.ownClaim a id = none) (hg : s.gate a = some g)
    (hm : g.memory = some m) (same : m.id = id) (hn : n ≠ 0) : s.passed a id n = (s.latePassage a m n, .late id) := by
  simp only [State.passed, h, State.ownMemory_of_gate hg, hm, Option.filter_some, same, beq_self_eq_true, if_true,
    if_neg hn]

/-- PASSED of nobody, or with an id that neither the gate's claim nor its memory bears, changes nothing (R169). -/
theorem State.passed_unknown {n : Nat} (h : s.ownClaim a id = none) (hg : s.gate a = some g)
    (none : (∀ m ∈ g.memory, m.id ≠ id) ∨ n = 0) : s.passed a id n = (s, .late id) := by
  simp only [State.passed, h, State.ownMemory_of_gate hg]
  split
  case h_2 => rfl
  case h_1 m hm =>
    obtain ⟨hm, same⟩ := Option.filter_eq_some_iff.1 hm
    rw [if_pos (none.resolve_left fun away => away m hm (by simpa using same))]

/-- What a late passage leaves, with the gate answered and its memory cleared (R169). -/
theorem State.latePassage_replied (health : Health) (toggle : Bool) (hg : s.gate a = some g) (m : Memory) (n : Nat) :
    let t := State.replied a toggle ((s.heard a health).latePassage a m n, .late id)
    LatePassed m (min n m.persons) s t ∧ answeredGate t a toggle (.late id) ∧ (t.gate a).bind (·.memory) = none := by
  have cleared := State.latePassage_gate (State.heard_gate hg health) m n
  have replied := State.replied_touches a toggle ((s.heard a health).latePassage a m n, .late id)
  exact ⟨((s.heard a health).latePassage_passed a m n).between (s.heard_touches a health).1 replied.1 (by decide)
      (by decide),
    State.replied_answeredGate (p := (_, .late id)) cleared rfl rfl toggle,
    State.replied_memory (p := (_, .late id)) cleared toggle⟩

/-- A message that changes nothing but the gate leaves the claims, the cars and the table (R163). -/
theorem State.replied_kept {health : Health} {u : State} (h : touches [.gates] (s.heard a health) u) (toggle : Bool)
    (y : Answer) :
    (State.replied a toggle (u, y)).adm.claims = s.adm.claims
      ∧ (∀ c, (State.replied a toggle (u, y)).car c = s.car c) ∧ (State.replied a toggle (u, y)).ent = s.ent := by
  have kept := (((s.heard_touches a health).trans h).trans (State.replied_touches a toggle (u, y))).1
  have ent : s.ent = _ := kept .ent (by decide)
  refine ⟨kept.claims (by decide), fun c => ?_, ent.symm⟩
  rw [kept.car (by decide) c, kept.record (by decide) c]
  rfl

end

/-- Settles O60: each message, and the lapse, by what it makes of the claim or the memory it names, in the state in
which the gate was heard. -/
theorem claimsEndByPassageAbandonmentOrLapse : Obligations.ClaimsEndByPassageAbandonmentOrLapse := by
  refine ⟨fun s idle ok frame => exec_gateResponse_of_idle idle ok frame, fun a g head id n s hg ha _ => ?_⟩
  intro toggle message respond station others
  let health := healthOf (head.toNat / 64)
  have passes (h : message 2) : respond [id, n]
      = .next (State.replied a toggle ((s.heard a health).passed a id (min n.toNat 9))) := by
    obtain ⟨kind, polled, due, new⟩ := h
    exact exec_gateResponse_passed hg ha kind polled due new id n
  have abandons (h : message 3) : respond [id]
      = .next (State.replied a toggle ((s.heard a health).abandoned a id)) := by
    obtain ⟨kind, polled, due, new⟩ := h
    exact exec_gateResponse_abandoned hg ha kind polled due new id
  have heard := s.heard_touches a health
  have heardGate := State.heard_gate hg health
  refine ⟨fun c q x r hq hx hid hc hr => ?own, fun foreign h => ⟨fun m hm same hn => ?late, fun none => ?unknown⟩,
    fun foreign h => ?abandoned⟩
  case own =>
    subst hid hc
    have own : (s.heard a health).ownClaim a x.id = some x :=
      State.ownClaim_of_claim ((heard.1.claimOf (by decide) a).trans hx)
    refine ⟨fun body h => ?ends, fun h hn => ?settles, fun byId => ?lapses⟩
    case ends =>
      have taken : respond body
          = .next (State.replied a toggle ((s.heard a health).abandonClaim x, .noAnswer)) := by
        rcases h with ⟨h, rfl⟩ | ⟨h, rfl, rfl⟩
        · rw [abandons h, State.abandoned, own]
        · rw [passes h, State.passed, own]; rfl
      obtain ⟨ended, answered, slot, admitted, memory⟩ := State.abandonClaim_replied health toggle hg hq hr
      exact ⟨_, taken, ⟨ended.record, ended.other, ended.load, State.deriveBoarding_boardingInv _, ended.claims,
        ended.slots⟩, answered, slot, admitted, memory⟩
    case settles =>
      have persons : min n.toNat 9 ≠ 0 := by omega
      have taken : respond [x.id, n]
          = .next (State.replied a toggle ((s.heard a health).settleClaim a x (min n.toNat 9), .noAnswer)) := by
        rw [passes h, State.passed, own]
        simp only [if_neg persons]
      obtain ⟨ended, answered, admitted, slot⟩ := State.settleClaim_replied health toggle hg hq hr (min n.toNat 9)
      exact ⟨_, taken, ⟨ended.record, ended.other, ended.load, State.deriveBoarding_boardingInv _, ended.claims,
        ended.slots⟩, answered, admitted, slot⟩
    case lapses =>
      obtain ⟨ended, now, slot, admitted, memory⟩ := State.lapseClaim_derived hg (State.claimOf_gate hx) hq hr
      exact ⟨_, exec_claimLapse byId, ⟨ended.record, ended.other, ended.load, State.deriveBoarding_boardingInv _,
        ended.claims, ended.slots⟩, now, slot, admitted, memory⟩
  case late =>
    have taken := passes h
    rw [State.passed_late (State.heard_ownClaim health foreign) heardGate hm same (by omega)] at taken
    obtain ⟨passed, answered, memory⟩ := State.latePassage_replied (id := id) health toggle hg m (min n.toNat 9)
    refine ⟨_, taken, State.deriveBoarding_boardingInv _, answered, memory, passed.claims, passed.record,
      fun c => ⟨passed.admitted c, passed.uncounted c⟩, passed.absent, fun slot r found =>
        ⟨passed.claimed slot r found, fun free => ⟨?_, fun j away => ?_⟩⟩⟩
    · exact (passed.charged slot r found free slot).trans (if_pos rfl)
    · exact (passed.charged slot r found free j).trans (if_neg away)
  case unknown =>
    have taken := passes h
    rw [State.passed_unknown (State.heard_ownClaim health foreign) heardGate
      (none.imp_right fun zero => by simp [zero])] at taken
    obtain ⟨claims, cars, ent⟩ := State.replied_kept (touches.refl [.gates] (s.heard a health)) toggle (.late id)
    exact ⟨_, taken, State.deriveBoarding_boardingInv _,
      State.replied_answeredGate (p := (_, .late id)) heardGate rfl rfl toggle, claims, cars, ent,
      State.replied_memory (p := (_, .late id)) heardGate toggle⟩
  case abandoned =>
    obtain ⟨u, e, cleared, gate⟩ := State.abandoned_of_foreign (State.heard_ownClaim health foreign) heardGate
    have taken := abandons h
    rw [e] at taken
    obtain ⟨claims, cars, ent⟩ := State.replied_kept cleared toggle .noAnswer
    exact ⟨_, taken, State.deriveBoarding_boardingInv _,
      State.replied_answeredGate (p := (u, .noAnswer)) gate rfl rfl toggle, claims, cars, ent,
      State.replied_memory (p := (u, .noAnswer)) gate toggle⟩

end Sys2Proof.Machine
end

-- ==== Which slot holds which media number ====
section
/-! A slot of the entitlement table takes a media number by ADD ENTITLEMENT alone. Every other command changes the other
fields of the records, or empties slots; so it keeps every number in its bucket and no number twice (R136, R137). -/

namespace Sys2Proof.Machine

/-! ### The form of the table, slot by slot -/

/-- In a table of rising slots the record of a slot is the one listed with it. -/
theorem entGet_eq_some_iff {t : EntTable} (order : (t.map (·.1)).Pairwise (· < ·)) {k : Nat} {r : EntRecord} :
    entGet t k = some r ↔ (k, r) ∈ t := by
  refine ⟨mem_of_entGet, fun h => ?_⟩
  induction t with
  | nil => cases h
  | cons p t ih =>
    obtain ⟨j, x⟩ := p
    rw [List.map_cons, List.pairwise_cons] at order
    obtain ⟨least, order⟩ := order
    rcases List.mem_cons.1 h with first | later
    · cases first
      simp only [entGet, if_true]
    · have above : j < k := least k (List.mem_map_of_mem later)
      simp only [entGet]
      rw [if_neg (by omega), ih order later]

theorem slots_rise {t : EntTable} (h : entWf t = true) : (t.map (·.1)).Pairwise (· < ·) := ((entWf_iff t).1 h).1

/-- An occupied slot is one of the table's, in the home bucket of its number (R136, R137). -/
theorem home_of_entGet {t : EntTable} (h : entWf t = true) {k : Nat} {r : EntRecord} (hr : entGet t k = some r) :
    k < 4096 ∧ bucketOf k = homeBucket r.media :=
  ((entWf_iff t).1 h).2 _ (mem_of_entGet hr)

/-- No media number stands in two slots. -/
def numbersOnce (t : EntTable) : Prop :=
  ∀ j k x y, entGet t j = some x → entGet t k = some y → x.media = y.media → j = k

/-- A table in its form lists no number twice where no two slots hold the same. -/
theorem nodup_media_iff {t : EntTable} (h : entWf t = true) :
    (t.map fun p => p.2.media).Nodup ↔ numbersOnce t := by
  have nodup : t.Nodup := (slots_rise h).sortedLT.nodup.of_map
  rw [List.nodup_map_iff_inj_on nodup]
  refine ⟨fun inj j k x y hx hy same => ?_, fun once p hp q hq same => ?_⟩
  · exact congrArg Prod.fst (inj _ (mem_of_entGet hx) _ (mem_of_entGet hy) same)
  · have slot := once _ _ _ _ ((entGet_eq_some_iff (slots_rise h)).2 hp) ((entGet_eq_some_iff (slots_rise h)).2 hq) same
    have record := (entGet_eq_some_iff (slots_rise h)).2 hp
    rw [slot, (entGet_eq_some_iff (slots_rise h)).2 hq] at record
    exact Prod.ext slot (Option.some.inj record).symm

theorem tableInv_iff (s : State) : tableInv s ↔ entWf s.ent.table = true ∧ numbersOnce s.ent.table :=
  and_congr_right nodup_media_iff

/-! ### The numbers stay -/

/-- Every slot that is occupied afterwards was occupied before, by a record of the same media number. -/
structure NumbersStay (s t : State) : Prop where
  slots : (t.ent.table.map (·.1)).Sublist (s.ent.table.map (·.1))
  media {k : Nat} {r : EntRecord} : entGet t.ent.table k = some r →
    ∃ q, entGet s.ent.table k = some q ∧ q.media = r.media

/-- Where the numbers stay the table keeps its invariant. -/
theorem tableInv.stays {s t : State} (h : tableInv s) (k : NumbersStay s t) : tableInv t := by
  rw [tableInv_iff] at h ⊢
  obtain ⟨wf, once⟩ := h
  have order := (slots_rise wf).sublist k.slots
  refine ⟨(entWf_iff _).2 ⟨order, fun p hp => ?_⟩, fun i j x y hx hy same => ?_⟩
  · obtain ⟨q, hq, same⟩ := k.media ((entGet_eq_some_iff order).2 hp)
    exact same ▸ home_of_entGet wf hq
  · obtain ⟨p, hp, hpx⟩ := k.media hx
    obtain ⟨q, hq, hqy⟩ := k.media hy
    exact once i j p q hp hq (hpx.trans (same.trans hqy.symm))

/-- A table that is the same holds no other number. -/
theorem NumbersStay.of_ent {s t : State} (h : s.ent = t.ent) : NumbersStay s t where
  slots := by rw [h]
  media hr := ⟨_, by rw [h]; exact hr, rfl⟩

/-- An empty table holds none. -/
theorem NumbersStay.of_empty (s : State) {t : State} (h : t.ent.table = []) : NumbersStay s t where
  slots := by rw [h]; exact List.nil_sublist _
  media hr := by rw [h] at hr; cases hr

theorem NumbersStay.refl (s : State) : NumbersStay s s := .of_ent rfl

theorem NumbersStay.trans {s t u : State} (h : NumbersStay s t) (k : NumbersStay t u) : NumbersStay s u where
  slots := k.slots.trans h.slots
  media hr := by
    obtain ⟨q, hq, hqr⟩ := k.media hr
    obtain ⟨p, hp, hpq⟩ := h.media hq
    exact ⟨p, hp, hpq.trans hqr⟩

/-- What comes before leaves the table alone. -/
theorem NumbersStay.after {s t u : State} (h : NumbersStay t u) (e : s.ent = t.ent) : NumbersStay s u :=
  (NumbersStay.of_ent e).trans h

theorem NumbersStay.of_keptBut {parts : List Part} {s t : State} (h : keptBut parts s t) (hp : Part.ent ∉ parts) :
    NumbersStay s t := .of_ent (h .ent hp)

/-- What follows leaves the table alone. -/
theorem NumbersStay.touched {parts : List Part} {s t u : State} (h : NumbersStay s t) (k : touches parts t u)
    (hp : Part.ent ∉ parts) : NumbersStay s u := h.trans (.of_keptBut k.1 hp)

theorem NumbersStay.derived {s t : State} (h : NumbersStay s t) : NumbersStay s t.deriveBoarding :=
  h.touched t.deriveBoarding_touches (by decide)

theorem NumbersStay.replied {s t : State} (h : NumbersStay s t) (code : Byte) (rc : ResultCode) (d : List Byte) :
    NumbersStay s (t.reply code rc d) := h.touched (t.reply_touches code rc d) (by decide)

theorem State.reply_numbersStay (s : State) (code : Byte) (rc : ResultCode) (d : List Byte) :
    NumbersStay s (s.reply code rc d) := (NumbersStay.refl s).replied code rc d

theorem NumbersStay.onExpiry {s : State} (due : Option Nat) {f : State → State}
    (effect : ∀ u, NumbersStay u (f u)) : NumbersStay s (onExpiry due s f) := by
  cases due with
  | none => exact .refl s
  | some t => exact (effect (s.advance t)).after rfl

theorem NumbersStay.foldl {α : Type} {f : State → α → State} (hf : ∀ s x, NumbersStay s (f s x)) (l : List α)
    (s : State) : NumbersStay s (l.foldl f s) := by
  induction l generalizing s with
  | nil => exact .refl s
  | cons x l ih => exact (hf s x).trans (ih (f s x))

/-! ### Changes of the table -/

/-- A slot becomes empty. -/
theorem State.setEnt_entErase_numbersStay (s : State) (slot : Nat) :
    NumbersStay s (s.setEnt (entErase s.ent.table slot)) where
  slots := List.filter_sublist.map _
  media {k r} hr := by
    rw [State.setEnt_table, entGet_entErase] at hr
    split at hr
    · cases hr
    · exact ⟨r, hr, rfl⟩

/-- The record of a slot changes, but not its number. -/
theorem State.setEnt_entModify_numbersStay (s : State) (slot : Nat) {f : EntRecord → EntRecord}
    (number : ∀ r, entGet s.ent.table slot = some r → (f r).media = r.media) :
    NumbersStay s (s.setEnt (entModify s.ent.table slot f)) where
  slots := by
    have same : (entModify s.ent.table slot f).map (·.1) = s.ent.table.map (·.1) := by
      rw [entModify, List.map_map]
      refine List.map_congr_left fun p _ => ?_
      by_cases here : p.1 = slot <;> simp [here]
    rw [State.setEnt_table, same]
  media {k r} hr := by
    rw [State.setEnt_table, entGet_entModify] at hr
    split at hr
    case isTrue here =>
      subst here
      obtain ⟨q, hq, rfl⟩ := Option.map_eq_some_iff.1 hr
      exact ⟨q, hq, (number q hq).symm⟩
    case isFalse => exact ⟨r, hr, rfl⟩

theorem State.detachClaim_numbersStay (s : State) (slot : Nat) : NumbersStay s (s.detachClaim slot) :=
  s.setEnt_entModify_numbersStay slot fun _ _ => rfl

theorem State.clearClaims_numbersStay (s : State) : NumbersStay s s.clearClaims where
  slots := by
    have same : (entMap s.ent.table fun r => { r with claim := none }).map (·.1) = s.ent.table.map (·.1) := by
      rw [entMap, List.map_map]
      rfl
    exact same ▸ List.Sublist.refl _
  media {k r} hr := by
    have cleared : entGet (entMap s.ent.table fun r => { r with claim := none }) k = some r := hr
    rw [entGet_entMap] at cleared
    obtain ⟨q, hq, rfl⟩ := Option.map_eq_some_iff.1 cleared
    exact ⟨q, hq, rfl⟩

/-- A commit charges the record of its slot, or consumes it (R149, R151). -/
theorem State.commitSlot_numbersStay (s : State) (slot station n : Nat) :
    NumbersStay s (s.commitSlot slot station n) := by
  unfold State.commitSlot
  split
  · exact .refl s
  case h_2 r hr =>
    dsimp only
    split
    · exact s.setEnt_entErase_numbersStay slot
    · refine s.setEnt_entModify_numbersStay slot fun q hq => ?_
      obtain rfl := Option.some.inj (hr.symm.trans hq)
      rfl

theorem State.onTimeCommit_numbersStay (s : State) (slot station n : Nat) :
    NumbersStay s (s.onTimeCommit slot station n) :=
  (s.detachClaim_numbersStay slot).trans (State.commitSlot_numbersStay _ slot station n)

theorem State.lateCommit_numbersStay (s : State) (m : Media) (station n : Nat) :
    NumbersStay s (s.lateCommit m station n) := by
  unfold State.lateCommit
  split
  · split
    · exact .refl s
    · exact s.commitSlot_numbersStay _ station n
  · exact .refl s

/-! ### Claims -/

theorem State.abandonClaim_numbersStay (s : State) (cl : Claim) : NumbersStay s (s.abandonClaim cl) :=
  ((NumbersStay.of_keptBut (s.lowerHeld_touches cl.car cl.persons).1 (by decide)).trans
    (State.detachClaim_numbersStay _ cl.slot)).touched (State.dropClaim_touches _ cl.id) (by decide)

/-- A lapse leaves the table as an abandonment does, and a memory at the gate (R166). -/
theorem State.lapseClaim_numbersStay (s : State) (cl : Claim) : NumbersStay s (s.lapseClaim cl) :=
  (s.abandonClaim_numbersStay cl).touched (State.modGate_touches _ cl.gate _) (by decide)

theorem State.lapseOwn_numbersStay (s : State) (addr : Nat) : NumbersStay s (s.lapseOwn addr) := by
  unfold State.lapseOwn
  split
  · exact s.lapseClaim_numbersStay _
  · exact .refl s

theorem State.openClaim_numbersStay (s : State) (addr slot : Nat) (r : EntRecord) (c : Car) (n : Nat) :
    NumbersStay s (s.openClaim addr slot r c n) := by
  have held : NumbersStay s (s.modRecord c fun q => { q with held := q.held + n }) :=
    .of_keptBut (s.modRecord_touches c _).1 (by decide)
  have claimed := held.trans (State.setEnt_entModify_numbersStay _ slot
    (f := fun x => { x with claim := some ⟨addr, s.adm.issue⟩ }) fun _ _ => rfl)
  exact claimed.trans (.of_ent rfl)

theorem State.present_numbersStay (s : State) (addr : Nat) (m : Media) : NumbersStay s (s.present addr m).1 := by
  have lapsed := s.lapseOwn_numbersStay addr
  have admits (u : State) (station slot : Nat) (r : EntRecord) :
      NumbersStay u (u.admitRecord addr station slot r).1 := by
    unfold State.admitRecord
    split
    · exact .refl u
    · exact .refl u
    · split
      · exact .refl u
      · exact u.openClaim_numbersStay _ _ _ _ _
  unfold State.present
  dsimp only
  split
  · exact lapsed
  · split
    · exact lapsed
    · exact lapsed.trans (admits _ _ _ _)

theorem State.settleClaim_numbersStay (s : State) (addr : Nat) (cl : Claim) (n : Nat) :
    NumbersStay s (s.settleClaim addr cl n) :=
  ((NumbersStay.of_keptBut ((s.addBoarded_touches cl.car _ false).trans (State.lowerHeld_touches _ cl.car _)).1
    (by decide)).trans (State.onTimeCommit_numbersStay _ cl.slot _ _)).touched (State.dropClaim_touches _ cl.id)
    (by decide)

theorem State.latePassage_numbersStay (s : State) (addr : Nat) (m : Memory) (n : Nat) :
    NumbersStay s (s.latePassage addr m n) :=
  ((NumbersStay.of_keptBut (s.countLate_touches m _).1 (by decide)).trans
    (State.lateCommit_numbersStay _ m.media m.station _)).touched (State.modGate_touches _ addr _) (by decide)

theorem State.passed_numbersStay (s : State) (addr : Nat) (id : Byte) (n : Nat) :
    NumbersStay s (s.passed addr id n).1 := by
  unfold State.passed
  split
  · dsimp only
    split
    exacts [s.abandonClaim_numbersStay _, s.settleClaim_numbersStay addr _ n]
  · split
    · dsimp only
      split
      exacts [.refl s, s.latePassage_numbersStay addr _ n]
    · exact .refl s

theorem State.abandoned_numbersStay (s : State) (addr : Nat) (id : Byte) :
    NumbersStay s (s.abandoned addr id).1 := by
  unfold State.abandoned
  split
  · exact s.abandonClaim_numbersStay _
  · dsimp only
    split
    exacts [.of_keptBut (s.modGate_touches addr _).1 (by decide), .refl s]

/-- A taken message leaves the table as its presentation, passage or abandonment does (R163). -/
theorem State.takeMessage_numbersStay (s : State) (addr : Nat) (toggle : Bool) (m : GateMessage) :
    NumbersStay s (s.takeMessage addr toggle m) := by
  have repeated : NumbersStay s (s.repeatAnswer addr) := .of_keptBut (s.modGate_touches addr _).1 (by decide)
  have answers {u : State} (h : NumbersStay s u) (a : Answer) : NumbersStay s (u.answer addr toggle a) :=
    h.touched (u.modGate_touches addr _) (by decide)
  unfold State.takeMessage
  cases m with
  | noMessage => exact .refl s
  | present media =>
    dsimp only
    split
    exacts [repeated, answers (s.present_numbersStay addr media) _]
  | passed id n =>
    dsimp only
    split
    exacts [repeated, answers (s.passed_numbersStay addr id n) _]
  | abandoned id =>
    dsimp only
    split
    exacts [repeated, answers (s.abandoned_numbersStay addr id) _]

theorem State.handleResponse_numbersStay (s : State) (addr : Nat) (ok : Bool) (frame : List Byte) :
    NumbersStay s (s.handleResponse addr ok frame) := by
  unfold State.handleResponse
  split
  · exact ((NumbersStay.of_keptBut (s.goodResponse_touches addr _).1 (by decide)).trans
      (State.takeMessage_numbersStay _ addr _ _)).derived
  · exact .of_keptBut (s.miss_touches addr).1 (by decide)

/-! ### Line transitions -/

theorem State.discardRecord_numbersStay (s : State) (c : Car) : NumbersStay s (s.discardRecord c) := by
  unfold State.discardRecord
  split
  · exact .refl s
  · exact ((NumbersStay.of_keptBut (s.setRecord_touches c none).1 (by decide)).trans
      (NumbersStay.foldl State.lapseClaim_numbersStay _ _)).touched (State.forgetRecord_touches _ c) (by decide)

theorem State.discardRecords_numbersStay (s : State) : NumbersStay s s.discardRecords :=
  (s.discardRecord_numbersStay .a).trans (State.discardRecord_numbersStay _ .b)

theorem State.setLine_numbersStay (s : State) (l : LineState) : NumbersStay s (s.setLine l) :=
  .of_keptBut (s.setLine_touches l).1 (by decide)

theorem State.enterHalted_numbersStay (s : State) (c : HaltCause) : NumbersStay s (s.enterHalted c) :=
  ((s.setLine_numbersStay .halted).trans (u := s.halting c) (.of_ent rfl)).trans (State.discardRecords_numbersStay _)

theorem State.haltEvent_numbersStay (s : State) (c : HaltCause) : NumbersStay s (s.haltEvent c) := by
  unfold State.haltEvent
  split
  exacts [s.enterHalted_numbersStay c, .refl s]

theorem State.dwelling_numbersStay (s : State) : NumbersStay s s.dwelling :=
  (s.setLine_numbersStay .dwell).touched (State.dwellSpeeds_touches _) (by decide)

theorem State.enterDwell_numbersStay (s : State) (k : Nat) : NumbersStay s (s.enterDwell k) :=
  s.dwelling_numbersStay.touched (State.createRecords_touches _ k) (by decide)

theorem State.returnToDwell_numbersStay (s : State) (c : HaltCause) : NumbersStay s (s.returnToDwell c) :=
  s.dwelling_numbersStay.touched (((State.setHalt_touches _ c).trans (State.moveAlarm_touches _ .a)).trans
    (State.moveAlarm_touches _ .b)) (by decide)

theorem State.enterParked_numbersStay (s : State) : NumbersStay s s.enterParked :=
  ((s.setLine_numbersStay .parked).trans (State.discardRecords_numbersStay _)).touched (State.dwellSpeeds_touches _)
    (by decide)

theorem State.endStart_numbersStay (s : State) (a b : HaltCause) : NumbersStay s (s.endStart a b) := by
  unfold State.endStart
  split
  · split
    exacts [s.returnToDwell_numbersStay a, s.enterHalted_numbersStay b]
  · exact s.enterHalted_numbersStay b

theorem State.takeRest_numbersStay (s : State) : NumbersStay s s.takeRest := by
  unfold State.takeRest State.comeToRest
  split
  · exact .of_ent rfl
  · split
    exacts [s.enterDwell_numbersStay _, s.enterDwell_numbersStay _, s.enterDwell_numbersStay _,
      s.enterHalted_numbersStay _, s.enterHalted_numbersStay _, .refl s]

theorem State.takeDatum_numbersStay (s : State) (berth : Nat) : NumbersStay s (s.takeDatum berth) := by
  have fixed : NumbersStay s (s.fixPosition (s.datumPoint berth)) := .of_keptBut (s.fixPosition_touches _).1 (by decide)
  have fault : NumbersStay s s.positionFault :=
    NumbersStay.trans (t := State.raise { s with geo := { s.geo with referenced := false } } .positionFault)
      (.of_ent rfl) (State.haltEvent_numbersStay _ _)
  unfold State.takeDatum
  split
  · split
    exacts [fixed, fault]
  · split
    exacts [.refl s, fault]
  exacts [fixed, .refl s, fault]

theorem State.leaveTripped_numbersStay (s : State) : NumbersStay s s.leaveTripped := by
  have cleared : NumbersStay s s.clearLatch := .of_keptBut s.clearLatch_touches.1 (by decide)
  cases h : s.current with
  | none => rw [State.leaveTripped_away h]; exact cleared.trans (State.enterHalted_numbersStay _ _)
  | some k =>
    have dwells : NumbersStay s s.clearLatch.dwelling := cleared.trans (State.dwelling_numbersStay _)
    by_cases named : ∃ r ∈ s.record .a, r.station = k
    · rw [State.leaveTripped_keeps h named]
      exact (dwells.touched s.dwellingKept_moved (by decide)).touched (State.testBoth_touches _) (by decide)
    · rw [State.leaveTripped_renews h fun r hr station => named ⟨r, hr, station⟩]
      exact (dwells.trans (State.discardRecords_numbersStay _)).touched (State.createRecords_touches _ k) (by decide)

theorem State.lineUplink_numbersStay (s : State) (c : Car) : NumbersStay s (s.lineUplink c) := by
  have trips (e : TripCause) : NumbersStay s (s.takeCause e) := .of_keptBut (s.takeCause_touches e).1 (by decide)
  unfold State.lineUplink
  split
  · exact .refl s
  · split
    · exact s.endStart_numbersStay _ _
    · exact trips _
    · exact trips _
    · split
      exacts [.refl s, trips _]
    all_goals exact .refl s

/-- The effect of a condition of the monitor leaves the table but for OVERTENSION, which ends a run (R58, R59, R76). -/
theorem State.raiseEffect_numbersStay (s : State) (k : CondId) : NumbersStay s (s.raiseEffect k) := by
  cases k with
  | overtension => exact s.haltEvent_numbersStay _
  | w1 => exact .of_keptBut (s.raiseEffect_touches .w1).1 (by decide)
  | frost => exact .of_keptBut (s.raiseEffect_touches .frost).1 (by decide)
  | slack => exact .of_keptBut (s.raiseEffect_touches .slack).1 (by decide)
  | w2 | m1 | m2 => exact .refl s

theorem State.moveCond_numbersStay (s : State) (k : CondId) (c : Cond) : NumbersStay s (s.moveCond k c) := by
  have marked : NumbersStay s (s.markCond k c) := .of_keptBut (s.markCond_touches k c).1 (by decide)
  unfold State.moveCond
  split
  · exact .of_keptBut (s.setCond_touches k c).1 (by decide)
  · split
    exacts [marked.trans (State.raiseEffect_numbersStay _ k),
      marked.touched (State.clearEffect_touches _ k) (by decide)]

theorem State.sampled_numbersStay (s : State) (ch : MonChannel) (f : CondId → Cond) : NumbersStay s (s.sampled ch f) :=
  (NumbersStay.foldl (fun u k => u.moveCond_numbersStay k (f k)) _ s).derived

theorem State.haulStep_numbersStay (s : State) : NumbersStay s s.haulStep := by
  have arrived : NumbersStay s (if s.arrivedUnreferenced then s.enterHalted .notReferenced else s) := by
    split
    exacts [s.enterHalted_numbersStay _, .refl s]
  rw [State.haulStep_eq]
  exact (arrived.trans (u := State.publishHaul _) (.of_ent rfl)).touched (State.compareHaul_touches _) (by decide)

/-! ### The commands -/

theorem unpark_numbersStay (s : State) : NumbersStay s (unpark s) := by
  rw [unpark_eq]
  refine State.answerBy_cases (P := NumbersStay s) (fun rc d => s.reply_numbersStay _ rc d) fun _ => ?_
  have entered : NumbersStay s s.unparked := by
    unfold State.unparked
    split
    exacts [s.enterDwell_numbersStay _, s.enterHalted_numbersStay _]
  exact entered.derived.replied _ _ _

theorem park_numbersStay (s : State) : NumbersStay s (park s) := by
  rw [park_eq]
  exact State.answerBy_cases (P := NumbersStay s) (fun rc d => s.reply_numbersStay _ rc d) fun _ =>
    s.enterParked_numbersStay.derived.replied _ _ _

theorem stopRun_numbersStay (s : State) : NumbersStay s (stopRun s) := by
  cases h : s.running with
  | true => rw [stopRun_of_running h]; exact (s.enterHalted_numbersStay _).derived.replied _ _ _
  | false =>
    rw [stopRun_of_still h]
    split
    exacts [s.reply_numbersStay _ _ _, s.reply_numbersStay _ _ _]

theorem resetTrip_numbersStay (s : State) : NumbersStay s (resetTrip s) := by
  unfold resetTrip
  split
  · split
    exacts [s.reply_numbersStay _ _ _, s.leaveTripped_numbersStay.derived.replied _ _ _]
  · split
    exacts [s.reply_numbersStay _ _ _, .of_ent rfl]
  all_goals exact s.reply_numbersStay _ _ _

theorem softReset_numbersStay (s : State) : NumbersStay s (softReset s) := by
  obtain ⟨-, -, ent, -⟩ := s.softResetDone_clears
  have done : NumbersStay s s.softResetDone := s.clearClaims_numbersStay.trans (.of_ent ent.symm)
  unfold softReset
  split
  · exact done
  · split
    exacts [done, s.reply_numbersStay _ _ _]
  · split
    exacts [done, s.reply_numbersStay _ _ _]
  all_goals exact s.reply_numbersStay _ _ _

theorem amendEntitlement_numbersStay (a : AmendEntArgs) (s : State) : NumbersStay s (amendEntitlement a s) := by
  have refused (rc : ResultCode) : NumbersStay s (s.reply 0x61 rc []) := s.reply_numbersStay _ _ _
  unfold amendEntitlement
  split
  · exact refused _
  split
  · exact refused _
  split
  · exact refused _
  case h_2 k r found =>
  split
  · exact refused _
  split
  · exact refused _
  refine (s.setEnt_entModify_numbersStay k fun q hq => ?_).replied _ _ _
  obtain rfl := Option.some.inj ((entGet_of_entFind found).symm.trans hq)
  rfl

theorem setBlocked_numbersStay (code : Byte) (blocked : Bool) (m : Media) (s : State) :
    NumbersStay s (setBlocked code blocked m s) := by
  have marked (slot : Nat) :
      NumbersStay s (s.setEnt (entModify s.ent.table slot fun r => { r with blocked := blocked })) :=
    s.setEnt_entModify_numbersStay slot fun _ _ => rfl
  unfold setBlocked
  split
  · exact s.reply_numbersStay _ _ _
  · split
    exacts [s.reply_numbersStay _ _ _, (marked _).replied _ _ _]

theorem retireEntitlement_numbersStay (m : Media) (s : State) : NumbersStay s (retireEntitlement m s) := by
  unfold retireEntitlement
  split
  · exact s.reply_numbersStay _ _ _
  · split
    · exact s.reply_numbersStay _ _ _
    · split
      exacts [s.reply_numbersStay _ _ _, (s.setEnt_entErase_numbersStay _).replied _ _ _]

theorem execTorqueReady_numbersStay {s t : State} (e : execTorqueReady s = .next t) : NumbersStay s t := by
  cases e
  dsimp only
  split_ifs
  · exact .refl s
  · exact ((State.discardRecords_numbersStay _).trans (State.setLine_numbersStay _ .moving)).derived.after rfl
  · exact .of_ent rfl

theorem execDatumEdge_numbersStay {k : Fin 4} {s t : State} (e : execDatumEdge k s = .next t) : NumbersStay s t := by
  cases e
  have level : NumbersStay s (s.setDatum k true) := .of_ent rfl
  dsimp only
  split_ifs
  · exact .refl s
  · exact ((level.trans (State.takeDatum_numbersStay _ _)).touched (State.testBoth_touches _) (by decide)).derived
  · exact level

theorem execGateResponse_numbersStay {ok : Bool} {frame : List Byte} {s t : State}
    (e : execGateResponse ok frame s = .next t) : NumbersStay s t := by
  cases e
  split
  · exact ((s.endAwait.handleResponse_numbersStay _ ok frame).touched (State.beginWaiting_touches _)
      (by decide)).after rfl
  · exact .refl s

/-- After power-on no slot is occupied (R187). -/
theorem State.powerOn_ent (x : Levels) : (State.powerOn x).ent.table = [] := by
  unfold State.powerOn
  dsimp only
  split <;> rfl

/-- No command but ADD ENTITLEMENT brings a media number into a slot. -/
theorem exec_numbersStay {c : Instr} {s t : State} (e : exec c s = .next t) (hc : ∀ p, c ≠ .addEntitlement p) :
    NumbersStay s t := by
  have wrong (code : Byte) : NumbersStay s (s.reply code .badParameter []) := s.reply_numbersStay _ _ _
  cases c with
  | addEntitlement p => exact absurd rfl (hc p)
  | unpark p => exact withForm_keeps e (wrong _) fun _ => unpark_numbersStay s
  | park p => exact withForm_keeps e (wrong _) fun _ => park_numbersStay s
  | stopRun p => exact withForm_keeps e (wrong _) fun _ => stopRun_numbersStay s
  | resetTrip p => exact withForm_keeps e (wrong _) fun _ => resetTrip_numbersStay s
  | softReset p => exact withForm_keeps e (wrong _) fun _ => softReset_numbersStay s
  | amendEntitlement p => exact withForm_keeps e (wrong _) fun a => amendEntitlement_numbersStay a s
  | blockEntitlement p => exact withForm_keeps e (wrong _) fun m => setBlocked_numbersStay _ _ m s
  | unblockEntitlement p => exact withForm_keeps e (wrong _) fun m => setBlocked_numbersStay _ _ m s
  | retireEntitlement p => exact withForm_keeps e (wrong _) fun m => retireEntitlement_numbersStay m s
  | restConfirm =>
    cases e
    refine .onExpiry _ fun u => ?_
    have rested := (State.takeRest_numbersStay u.restConfirmed).touched (State.testBoth_touches _) (by decide)
    exact rested.derived.after rfl
  | datumEdge k => exact execDatumEdge_numbersStay e
  | monitorSample ch x =>
    cases (execMonitorSample_eq ch x s).symm.trans e
    exact ((NumbersStay.of_keptBut (State.takeReading_touches _ ch _ _ _).1 (by decide)).trans
      (State.sampled_numbersStay _ ch _)).after rfl
  | haulSample =>
    cases e
    exact (State.haulStep_numbersStay s.haulTicked).derived.after rfl
  | torqueReady => exact execTorqueReady_numbersStay e
  | torqueReadyTimeout =>
    cases e
    exact .onExpiry _ fun u => (u.stopTorque.endStart_numbersStay _ _).derived.after rfl
  | uplink c ok frame =>
    cases e
    split
    · exact ((NumbersStay.of_keptBut (s.takeReport_touches c _).1 (by decide)).trans
        (State.lineUplink_numbersStay _ c)).touched (State.uplinked_afterLine s c _) (by decide)
    · exact .refl s
  | carLinkTimeout c =>
    cases e
    refine .onExpiry _ fun u => ?_
    exact (State.haltEvent_numbersStay (u.linkLost c) .carLink).derived.after (by cases c <;> rfl)
  | gateResponse ok frame => exact execGateResponse_numbersStay e
  | claimLapse id =>
    cases e
    split
    · exact (State.lapseClaim_numbersStay _ _).derived.after rfl
    · exact .refl s
  | powerOnReset x => cases e; exact .of_empty s (State.powerOn_ent x)
  | _ => exact .of_keptBut (exec_keptBut e (by intros; exact Instr.noConfusion)) (by simp only [partsOf]; decide)

/-! ### ADD ENTITLEMENT -/

/-- A slot of a bucket (section 8.1). -/
theorem mem_bucketSlots {b k : Nat} : k ∈ bucketSlots b ↔ 4 * b ≤ k ∧ k < 4 * b + 4 := by
  simp only [bucketSlots, List.mem_cons, List.not_mem_nil, or_false]
  omega

/-- Where a number is not found no record of its home bucket carries it (R140). -/
theorem entFind_eq_none_iff (t : EntTable) (m : Media) :
    entFind t m = none ↔ ∀ k ∈ bucketSlots (homeBucket m), ∀ r, entGet t k = some r → r.media ≠ m := by
  rw [entFind, List.findSome?_eq_none_iff]
  refine forall₂_congr fun k _ => ?_
  cases entGet t k <;> simp

theorem homeBucket_lt (m : Media) : homeBucket m < 1024 := BitVec.isLt _

/-- A record with a new number, put into its home bucket, keeps the invariant. -/
theorem tableInv.place {s : State} (h : tableInv s) {slot : Nat} {r : EntRecord}
    (home : slot ∈ bucketSlots (homeBucket r.media)) (new : entFind s.ent.table r.media = none) :
    tableInv (s.setEnt (entPut s.ent.table slot r)) := by
  rw [tableInv_iff] at h ⊢
  obtain ⟨wf, once⟩ := h
  have bucket := homeBucket_lt r.media
  have inside := mem_bucketSlots.1 home
  refine ⟨entWf_entPut wf (by omega) (bucketOf_mem home), fun i j x y hx hy same => ?_⟩
  have other {k : Nat} {q : EntRecord} (hq : entGet s.ent.table k = some q) : q.media ≠ r.media := fun equal => by
    refine (entFind_eq_none_iff _ _).1 new k ?_ q hq equal
    have slots := (home_of_entGet wf hq).2
    rw [equal, bucketOf] at slots
    exact mem_bucketSlots.2 (by omega)
  rw [State.setEnt_table, entGet_entPut (slots_rise wf)] at hx hy
  split at hx
  case isTrue hi =>
    split at hy
    case isTrue hj => rw [hi, hj]
    case isFalse => cases hx; exact absurd same.symm (other hy)
  case isFalse =>
    split at hy
    case isTrue => cases hy; exact absurd same (other hx)
    case isFalse => exact once i j x y hx hy same

theorem lowestEmpty_mem {t : EntTable} {b k : Nat} (h : lowestEmpty t b = some k) : k ∈ bucketSlots b :=
  List.mem_of_find?_eq_some h

theorem reclaimDay_eq_some_iff (r : EntRecord) (today d : Nat) :
    r.reclaimDay today = some d ↔ r.validUntil = some d ∧ d < today ∧ r.claim = none := by
  unfold EntRecord.reclaimDay
  cases r.validUntil with
  | none => simp
  | some e =>
    simp only [Option.ite_none_right_eq_some, Option.some.injEq]
    constructor
    · rintro ⟨⟨past, free⟩, rfl⟩
      exact ⟨rfl, past, free⟩
    · rintro ⟨rfl, past, free⟩
      exact ⟨⟨past, free⟩, rfl⟩

/-- A reclaim candidate of a bucket is the record of one of its slots, expired and without a claim (R142). -/
theorem mem_candidates {t : EntTable} {b today : Nat} {c : Candidate} :
    c ∈ candidates t b today ↔ c.slot ∈ bucketSlots b ∧ ∃ r, entGet t c.slot = some r ∧ r.validUntil = some c.day
      ∧ c.day < today ∧ r.claim = none ∧ r.media = c.media := by
  obtain ⟨slot, day, media⟩ := c
  simp only [candidates, List.mem_filterMap]
  constructor
  · rintro ⟨k, hk, hc⟩
    cases hr : entGet t k with
    | none => simp [hr] at hc
    | some r =>
      simp only [hr, Option.map_eq_some_iff, reclaimDay_eq_some_iff] at hc
      obtain ⟨d, ⟨valid, past, free⟩, same⟩ := hc
      cases same
      exact ⟨hk, r, hr, valid, past, free, rfl⟩
  · rintro ⟨hk, r, hr, valid, past, free, rfl⟩
    refine ⟨slot, hk, ?_⟩
    simp only [hr, (reclaimDay_eq_some_iff r today day).2 ⟨valid, past, free⟩, Option.map_some]

theorem earliest_mem {l : List Candidate} {c : Candidate} (h : earliest l = some c) : c ∈ l := by
  induction l with
  | nil => cases h
  | cons x l ih =>
    unfold earliest at h
    split at h
    case h_1 y hy =>
      split at h
      case isTrue => cases h; exact List.mem_cons_of_mem _ (ih hy)
      case isFalse => cases h; exact List.mem_cons_self
    case h_2 => cases h; exact List.mem_cons_self

theorem State.reclaimed_mem {s : State} {b : Nat} {c : Candidate} (h : s.reclaimed b = some c) :
    c.slot ∈ bucketSlots b := by
  unfold State.reclaimed at h
  split at h
  · exact (mem_candidates.1 (earliest_mem h)).1
  · cases h

theorem addEntitlement_tableInv {s : State} (h : tableInv s) (x : EntTransfer) : tableInv (addEntitlement x s) := by
  unfold addEntitlement
  dsimp only
  split
  · exact h
  · split
    · exact h
    case h_2 new =>
      split
      case h_1 k empty => exact h.place (r := entOfTransfer x) (lowestEmpty_mem empty) new
      case h_2 =>
        split
        case h_1 c reclaims => exact h.place (r := entOfTransfer x) (State.reclaimed_mem reclaims) new
        case h_2 => exact h

/-- Settles O10: ADD ENTITLEMENT places a new number in its home bucket, and after every other command each occupied
slot holds a number that it held before. -/
theorem entitlementTableStaysInItsBuckets : Obligations.EntitlementTableStaysInItsBuckets := by
  intro s t h e
  unfold step at e
  split at e
  · cases e; exact h
  case h_2 c rest _ =>
    have popped : tableInv { s with pending := rest } := h
    cases c with
    | addEntitlement p => exact withForm_keeps e popped fun x => addEntitlement_tableInv popped x
    | _ => exact popped.stays (exec_numbersStay e (by intros; exact Instr.noConfusion))

end Sys2Proof.Machine
end

-- ==== ADD ENTITLEMENT ====
section
/-! ADD ENTITLEMENT checks its record, and places it in the lowest empty slot of its home bucket or in the slot of the
earliest reclaim candidate (R137, R141, R142). -/

namespace Sys2Proof.Machine

/-! ### The record received -/

theorem fieldA_low (x : BitVec 16) : x.extractLsb' 0 8 = 0 ↔ x.toNat % 256 = 0 := by
  rw [BitVec.toNat_eq, BitVec.extractLsb'_toNat]
  simp

theorem fieldA_high (x : BitVec 16) : (x.extractLsb' 8 8).toNat = x.toNat / 256 := by
  rw [BitVec.extractLsb'_toNat, Nat.shiftRight_eq_div_pow]
  omega

/-- The four kind codes (section 11.3). -/
theorem kindCode_cases (x : BitVec 2) : x = 0 ∨ x = 1 ∨ x = 2 ∨ x = 3 := by
  revert x
  decide

/-- The checks on a received record are the cases of R141 and R191, kind by kind. -/
theorem entTransferGood_iff (t : EntTransfer) : entTransferGood t = true ↔ ¬transferFails t := by
  have low : t.fieldA.extractLsb' 0 8 = 0#8 ↔ t.fieldA.toNat % 256 = 0 := fieldA_low t.fieldA
  have least : ¬t.group.toNat = 0 ↔ 1 ≤ t.group.toNat := by omega
  unfold entTransferGood transferFails EntTransfer.has
  rcases kindCode_cases t.kind with single | multi | period | staff
  · simp [single, entKindOf, least, imp_iff_not_or, and_assoc]
  · simp [multi, entKindOf, low, least, imp_iff_not_or, and_assoc]
  · simp [period, entKindOf, least, imp_iff_not_or, and_assoc]
  · simp [staff, entKindOf, least, imp_iff_not_or, and_assoc]

/-- The record that the checked transfer record stands for, field by field (R138, R142). -/
theorem entOfTransfer_eq (t : EntTransfer) : entOfTransfer t =
    { media := t.media, kind := entKindOf t.kind, blocked := t.blocked, group := t.group.toNat
      rides := if t.kind = 1 then some (t.fieldA.toNat / 256) else none
      validFrom := if t.kind = 2 then some t.fieldA.toNat else none
      validUntil := if t.presence.getLsbD 1 then some t.untilDay.toNat else none
      stations := if t.presence.getLsbD 2 then some t.stations else none
      daily := if t.presence.getLsbD 3 then some ⟨t.cap.toNat, 0, none⟩ else none
      stamp := none, claim := none } := by
  have multi : entKindOf t.kind = .multi ↔ t.kind = 1 := by
    rcases kindCode_cases t.kind with code | code | code | code <;> simp [code, entKindOf]
  have period : entKindOf t.kind = .period ↔ t.kind = 2 := by
    rcases kindCode_cases t.kind with code | code | code | code <;> simp [code, entKindOf]
  have rides := if_congr multi (congrArg some (fieldA_high t.fieldA)) (rfl : (none : Option Nat) = none)
  have validFrom := if_congr period (rfl : some t.fieldA.toNat = some t.fieldA.toNat) (rfl : none = none)
  rw [entOfTransfer, rides, validFrom]
  rfl

/-! ### The slot chosen -/

/-- The lowest empty slot of a bucket (R142). -/
theorem lowestEmpty_eq_some_iff {t : EntTable} {b k : Nat} :
    lowestEmpty t b = some k ↔ k ∈ bucketSlots b ∧ entGet t k = none
      ∧ ∀ m ∈ bucketSlots b, m < k → (entGet t m).isSome := by
  have slots : bucketSlots b = List.range' (4 * b) 4 := rfl
  rw [lowestEmpty, slots, List.find?_range'_eq_some]
  simp only [List.mem_range'_1, Option.isNone_iff_eq_none, Bool.not_eq_true', Option.isNone_eq_false_iff]
  constructor
  · rintro ⟨empty, inside, below⟩
    exact ⟨inside, empty, fun m hm => below m hm.1⟩
  · rintro ⟨inside, empty, below⟩
    exact ⟨empty, inside, fun m least lower => below m ⟨least, by omega⟩ lower⟩

theorem lowestEmpty_eq_none_iff {t : EntTable} {b : Nat} :
    lowestEmpty t b = none ↔ ∀ k ∈ bucketSlots b, (entGet t k).isSome := by
  simp [lowestEmpty, List.find?_eq_none, ← Option.isSome_iff_ne_none]

/-- The candidates of a bucket stand in the order of their slots. -/
theorem candidates_rise (t : EntTable) (b today : Nat) :
    (candidates t b today).Pairwise fun x y => x.slot < y.slot := by
  have slots : (bucketSlots b).Pairwise (· < ·) := by simp [bucketSlots]
  refine slots.filterMap _ fun j k lower x hx y hy => ?_
  have slot {i : Nat} {c : Candidate}
      (h : (match entGet t i with
        | some r => (EntRecord.reclaimDay r today).map fun d => (⟨i, d, r.media⟩ : Candidate)
        | none => none) = some c) : c.slot = i := by
    split at h
    · obtain ⟨d, -, rfl⟩ := Option.map_eq_some_iff.1 h
      rfl
    · cases h
  rw [slot hx, slot hy]
  exact lower

/-- The earliest candidate: no other ends before it, and none that ends with it stands in a lower slot (R142). -/
theorem earliest_eq_some {l : List Candidate} (order : l.Pairwise fun x y => x.slot < y.slot) {c : Candidate}
    (hc : c ∈ l) (least : ∀ x ∈ l, c.day < x.day ∨ (c.day = x.day ∧ c.slot ≤ x.slot)) : earliest l = some c := by
  induction l with
  | nil => cases hc
  | cons x l ih =>
    obtain ⟨above, order⟩ := List.pairwise_cons.1 order
    rcases List.mem_cons.1 hc with rfl | later
    · cases h : earliest l with
      | none => simp only [earliest, h]
      | some y =>
        have notBefore := least y (List.mem_cons_of_mem _ (earliest_mem h))
        simp only [earliest, h]
        rw [if_neg (by omega)]
    · have found := ih order later fun y hy => least y (List.mem_cons_of_mem _ hy)
      have before := least x List.mem_cons_self
      have behind := above c later
      simp only [earliest, found]
      rw [if_pos (by omega)]

/-! ### The outcomes -/

/-- The state after an ADD that places its record in a slot (R142). -/
def State.added (s : State) (x : EntTransfer) (slot : Nat) (gone : Media) : State :=
  (s.setEnt (entPut s.ent.table slot (entOfTransfer x))).reply 0x60 .ok (be2 slot ++ be5 gone)

theorem State.added_touches (s : State) (x : EntTransfer) (slot : Nat) (gone : Media) :
    touches [.ent, .result] s (s.added x slot gone) :=
  (s.setEnt_touches _).trans (State.reply_touches _ _ _ _)

theorem State.added_entGet {s : State} (wf : entWf s.ent.table = true) (x : EntTransfer) (slot : Nat) (gone : Media)
    (k : Nat) : entGet (s.added x slot gone).ent.table k
      = if k = slot then some (entOfTransfer x) else entGet s.ent.table k :=
  entGet_entPut (slots_rise wf) slot _ k

/-- What an ADD does with a record that passes its checks: the number is held, a slot is empty, a candidate is
reclaimed, or the bucket is full (R142). -/
def State.addGood (s : State) (x : EntTransfer) : State :=
  match entFind s.ent.table x.media, lowestEmpty s.ent.table (homeBucket x.media),
    s.reclaimed (homeBucket x.media) with
  | some _, _, _ => s.reply 0x60 .duplicate []
  | none, some k, _ => s.added x k 0
  | none, none, some c => s.added x c.slot c.media
  | none, none, none => s.reply 0x60 .tableFull []

theorem addEntitlement_of_bad {x : EntTransfer} (bad : transferFails x) (s : State) :
    addEntitlement x s = s.reply 0x60 .badParameter [] := by
  have good : entTransferGood x = false := by simpa [bad] using entTransferGood_iff x
  simp only [addEntitlement, good, Bool.not_false, if_true]

theorem addEntitlement_of_good {x : EntTransfer} (good : ¬transferFails x) (s : State) :
    addEntitlement x s = s.addGood x := by
  have good := (entTransferGood_iff x).2 good
  simp only [addEntitlement, State.addGood, good, Bool.not_true, Bool.false_eq_true, if_false]
  cases entFind s.ent.table x.media with
  | some f => rfl
  | none =>
    cases lowestEmpty s.ent.table (homeBucket x.media) with
    | some k => rfl
    | none => cases s.reclaimed (homeBucket x.media) <;> rfl

/-- Settles O36, check by check of R141 and then by the slots of the home bucket. -/
theorem addEntitlementPlacesOrReclaims : Obligations.AddEntitlementPlacesOrReclaims := by
  intro x s wf b inBucket at_ candidate placed refused
  have bucket (k : Nat) : k ∈ bucketSlots b ↔ inBucket k := mem_bucketSlots
  have refuses {rc : ResultCode} (h : addEntitlement x s = s.reply 0x60 rc []) : refused rc :=
    ⟨_, congrArg Host.Outcome.next h, rfl, (s.reply_touches _ _ _).1⟩
  have places {k : Nat} {gone : Media} (h : addEntitlement x s = s.added x k gone) : placed k gone := by
    refine ⟨_, congrArg Host.Outcome.next h, rfl, (s.added_touches x k gone).1, ?_, fun m other => ?_⟩
    · rw [State.added_entGet wf, if_pos rfl, entOfTransfer_eq]
    · rw [State.added_entGet wf, if_neg other]
  have isCandidate {c : Candidate} (hc : c ∈ candidates s.ent.table b s.tsr.day) : candidate c.slot c.day := by
    obtain ⟨inside, r, hr, valid, past, free, -⟩ := mem_candidates.1 hc
    exact ⟨(bucket _).1 inside, r, hr, valid, past, free⟩
  refine ⟨fun bad => refuses (addEntitlement_of_bad bad s), fun good => ⟨fun ⟨k, inside, r, hr, same⟩ => ?held,
    fun new => ⟨fun k inside empty below => ?empty, fun full =>
      ⟨fun set k d r cand hr least => ?reclaims, fun no => ?full⟩⟩⟩⟩
  case held =>
    refine refuses ?_
    rw [addEntitlement_of_good good, State.addGood]
    cases found : entFind s.ent.table x.media with
    | some f => rfl
    | none => exact absurd same ((entFind_eq_none_iff _ _).1 found k ((bucket k).2 inside) r hr)
  all_goals
    have unfound : entFind s.ent.table x.media = none :=
      (entFind_eq_none_iff _ _).2 fun k inside r hr => new k r ((bucket k).1 inside) hr
  case empty =>
    have lowest : lowestEmpty s.ent.table b = some k :=
      lowestEmpty_eq_some_iff.2 ⟨(bucket k).2 inside, empty, fun m hm => below m ((bucket m).1 hm)⟩
    refine places ?_
    rw [addEntitlement_of_good good, State.addGood, unfound, lowest]
  all_goals
    have occupied : lowestEmpty s.ent.table b = none := lowestEmpty_eq_none_iff.2 fun k hk => full k ((bucket k).1 hk)
  case reclaims =>
    obtain ⟨inside, q, hq, valid, past, free⟩ := cand
    obtain rfl : q = r := Option.some.inj (Eq.trans (Eq.symm hq) hr)
    have chosen : s.reclaimed b = some ⟨k, d, q.media⟩ := by
      rw [State.reclaimed, if_pos set]
      exact earliest_eq_some (candidates_rise _ _ _)
        (mem_candidates.2 ⟨(bucket k).2 inside, q, hr, valid, past, free, rfl⟩) fun y hy => least _ _ (isCandidate hy)
    refine places ?_
    rw [addEntitlement_of_good good, State.addGood, unfound, occupied, chosen]
  case full =>
    have nothing : s.reclaimed b = none := by
      rw [State.reclaimed]
      split
      case isFalse => rfl
      case isTrue set =>
        have never := no.resolve_left (by rw [set]; decide)
        exact Option.eq_none_iff_forall_not_mem.2 fun c hc => never _ _ (isCandidate (earliest_mem hc))
    refine refuses ?_
    rw [addEntitlement_of_good good, State.addGood, unfound, occupied, nothing]

end Sys2Proof.Machine
end

-- ==== AMEND ENTITLEMENT ====
section
/-! AMEND ENTITLEMENT makes the four checks of R143 in order, and then changes each field by its action. -/

namespace Sys2Proof.Machine

/-! ### The actions -/

/-- The code of an action (R190). -/
def Action.code : Action → Nat
  | .keep => 0
  | .set => 1
  | .remove => 2

theorem actionOf_eq_none_iff (x : BitVec 2) : actionOf x = none ↔ 2 < x.toNat := by
  revert x
  decide

theorem code_of_actionOf {x : BitVec 2} {act : Action} (h : actionOf x = some act) : x.toNat = act.code := by
  revert x act
  decide

theorem Action.code_le (act : Action) : act.code ≤ 2 := by cases act <;> decide

theorem Action.code_le_one {act : Action} (h : act ≠ .remove) : act.code ≤ 1 := by
  cases act with
  | keep | set => decide
  | remove => exact absurd rfl h

/-- A field after an action, by the action's code (R143). -/
theorem Action.on_eq {α : Type} (act : Action) (old : Option α) (new : α) :
    act.on old new = if act.code = 1 then some new else if act.code = 2 then none else old := by
  cases act <;> rfl

/-- A value is out of range where its field is SET (R143 check 1). -/
theorem Action.set_eq_false_iff (act : Action) (p : Prop) [Decidable p] :
    (act != .set || decide p) = false ↔ act.code = 1 ∧ ¬p := by
  cases act <;> simp [Action.code]

/-- A field's action is not allowed where it is no KEEP (R143 check 4). -/
theorem Action.not_keep_or (act : Action) (allowed : Bool) :
    (!(act == .keep || allowed)) = (decide (act.code ≠ 0) && !allowed) := by
  cases act <;> simp [Action.code]

/-- The five actions are those of these bits (R190). -/
structure ActionsAre (a : AmendEntArgs) (x : EntActions) : Prop where
  rides : actionBits a 0 = x.rides.code
  group : actionBits a 1 = x.group.code
  untilDay : actionBits a 2 = x.untilDay.code
  stations : actionBits a 3 = x.stations.code
  cap : actionBits a 4 = x.cap.code

/-- The rides and the group are never removed (R143 check 1). -/
theorem actionsOf_eq_some {a : AmendEntArgs} {x : EntActions} (h : actionsOf a.actions = some x) :
    ActionsAre a x ∧ x.rides ≠ .remove ∧ x.group ≠ .remove := by
  unfold actionsOf at h
  split at h
  case h_1 rides group untilDay stations cap =>
    split at h
    · cases h
    case isFalse allowed =>
      cases h
      rw [not_or] at allowed
      exact ⟨⟨code_of_actionOf rides, code_of_actionOf group, code_of_actionOf untilDay, code_of_actionOf stations,
        code_of_actionOf cap⟩, allowed⟩
  case h_2 => cases h

theorem actionsOf_eq_none {a : AmendEntArgs} (h : actionsOf a.actions = none) :
    1 < actionBits a 0 ∨ 1 < actionBits a 1 ∨ 2 < actionBits a 2 ∨ 2 < actionBits a 3 ∨ 2 < actionBits a 4 := by
  by_contra fits
  simp only [not_or, Nat.not_lt] at fits
  obtain ⟨rides, group, untilDay, stations, cap⟩ := fits
  have act (k : Nat) (fit : actionBits a k ≤ 2) : ∃ act, actionOf (a.actions.extractLsb' (2 * k) 2) = some act := by
    refine Option.ne_none_iff_exists'.1 fun none => ?_
    have beyond := (actionOf_eq_none_iff _).1 none
    unfold actionBits at fit
    omega
  obtain ⟨r, hr⟩ := act 0 (by omega)
  obtain ⟨g, hg⟩ := act 1 (by omega)
  obtain ⟨u, hu⟩ := act 2 untilDay
  obtain ⟨st, hst⟩ := act 3 stations
  obtain ⟨c, hc⟩ := act 4 cap
  have notRemoved {k : Nat} {act : Action} (h : actionOf (a.actions.extractLsb' (2 * k) 2) = some act)
      (fit : actionBits a k ≤ 1) : act ≠ .remove := by
    rintro rfl
    have code : actionBits a k = 2 := code_of_actionOf h
    omega
  have allowed : ¬(r = .remove ∨ g = .remove) := not_or.2 ⟨notRemoved hr rides, notRemoved hg group⟩
  simp only [actionsOf, hr, hg, hu, hst, hc, if_neg allowed] at h
  cases h

theorem ActionsAre.codes_le {a : AmendEntArgs} {x : EntActions} (bits : ActionsAre a x) (rides : x.rides ≠ .remove)
    (group : x.group ≠ .remove) : actionBits a 0 ≤ 1 ∧ actionBits a 1 ≤ 1 ∧ actionBits a 2 ≤ 2 ∧ actionBits a 3 ≤ 2
      ∧ actionBits a 4 ≤ 2 := by
  rw [bits.rides, bits.group, bits.untilDay, bits.stations, bits.cap]
  exact ⟨Action.code_le_one rides, Action.code_le_one group, Action.code_le _, Action.code_le _, Action.code_le _⟩

section
variable {a : AmendEntArgs} {x : EntActions} (bits : ActionsAre a x)
include bits

theorem valuesInRange_eq_false_iff : valuesInRange x a = false ↔
    (actionBits a 1 = 1 ∧ ¬(1 ≤ a.group.toNat ∧ a.group.toNat ≤ 9))
      ∨ (actionBits a 3 = 1 ∧ ¬(1 ≤ a.stations.toNat ∧ a.stations.toNat ≤ 15))
      ∨ (actionBits a 4 = 1 ∧ ¬(1 ≤ a.cap.toNat ∧ a.cap.toNat ≤ 15)) := by
  rw [bits.group, bits.stations, bits.cap, valuesInRange, Bool.and_eq_false_iff, Bool.and_eq_false_iff, or_assoc,
    Action.set_eq_false_iff, Action.set_eq_false_iff, Action.set_eq_false_iff]

/-- The actions that a record's kind does not allow (R143 check 4). -/
theorem actionsAllowed_eq (r : EntRecord) : (!actionsAllowed x a r) =
    ((decide (actionBits a 0 ≠ 0) && !(r.kind == .multi))
      || (decide (actionBits a 1 ≠ 0 ∧ a.group ≠ 1) && !(r.kind == .single || r.kind == .multi))
      || (decide (actionBits a 2 ≠ 0) && !(r.kind != .staff))
      || (decide (actionBits a 2 = 2) && !(r.kind != .period))
      || (decide (actionBits a 2 = 1) && (r.kind == .period && decide (a.untilDay.toNat < r.validFrom.getD 0)))
      || (decide (actionBits a 4 ≠ 0) && !(r.kind == .period))) := by
  have group : (!(x.group == .keep || a.group == 1 || r.kind == .single || r.kind == .multi))
      = (decide (x.group.code ≠ 0 ∧ a.group ≠ 1) && !(r.kind == .single || r.kind == .multi)) := by
    rw [Bool.or_assoc, Bool.or_assoc, Action.not_keep_or, Bool.not_or, Bool.decide_and, Bool.and_assoc, decide_not,
      decide_not]
    rfl
  have order : decide (r.validFrom.getD 0 ≤ a.untilDay.toNat) = !decide (a.untilDay.toNat < r.validFrom.getD 0) := by
    rw [← decide_not, decide_eq_decide, Nat.not_lt]
  rw [bits.rides, bits.group, bits.untilDay, bits.cap, actionsAllowed, Bool.not_and, Bool.not_and, Bool.not_and,
    Action.not_keep_or, group, Action.not_keep_or, order]
  simp only [Bool.or_assoc]
  generalize (decide (x.cap.code ≠ 0) && !(r.kind == .period)) = capBad
  generalize decide (a.untilDay.toNat < r.validFrom.getD 0) = early
  congr 2
  cases x.untilDay with
  | keep => rfl
  | set =>
    cases r.kind with
    | period => cases early <;> rfl
    | single | multi | staff => rfl
  | remove => cases r.kind <;> rfl

/-- The record after an AMEND with these actions, field by field (R143). -/
theorem amendedEnt_eq (rides : x.rides ≠ .remove) (r : EntRecord) : amendedEnt x a r = { r with
    rides := if actionBits a 0 = 1 then some a.rides.toNat else r.rides
    group := if actionBits a 1 = 1 then a.group.toNat else r.group
    validUntil := if actionBits a 2 = 1 then some a.untilDay.toNat
      else if actionBits a 2 = 2 then none else r.validUntil
    stations := if actionBits a 3 = 1 then some (a.stations.setWidth 4)
      else if actionBits a 3 = 2 then none else r.stations
    daily := if actionBits a 4 = 1 then some ⟨a.cap.toNat, (r.daily.map (·.today)).getD 0, r.daily.bind (·.rideDay)⟩
      else if actionBits a 4 = 2 then none else r.daily } := by
  have kept : x.rides.code ≠ 2 := Nat.ne_of_lt (Nat.lt_succ_of_le (Action.code_le_one rides))
  have group : ((x.group.on (some r.group) a.group.toNat).getD r.group)
      = if x.group.code = 1 then a.group.toNat else r.group := by
    cases x.group <;> rfl
  have cap : capOn x.cap r.daily a.cap.toNat = if x.cap.code = 1 then
      some ⟨a.cap.toNat, (r.daily.map (·.today)).getD 0, r.daily.bind (·.rideDay)⟩
      else if x.cap.code = 2 then none else r.daily := by
    cases r.daily <;> exact Action.on_eq _ _ _
  rw [bits.rides, bits.group, bits.untilDay, bits.stations, bits.cap, amendedEnt, group, cap, Action.on_eq,
    Action.on_eq, Action.on_eq, if_neg kept, BitVec.setWidth_eq_extractLsb' (by decide)]

end

/-! ### The checks -/

/-- An AMEND that passes its checks changes the record of its slot, and answers with it (R143, R190). -/
def State.amendedTo (s : State) (k : Nat) (q : EntRecord) : State :=
  (s.setEnt (entModify s.ent.table k fun _ => q)).reply 0x61 .ok (entRecordBytes q)

/-- A slot after the record that stands in a slot is changed. -/
theorem entGet_entModify_of_some {t : EntTable} {k : Nat} {r : EntRecord} (hr : entGet t k = some r)
    (f : EntRecord → EntRecord) (m : Nat) :
    entGet (entModify t k f) m = if m = k then some (f r) else entGet t m := by
  rw [entGet_entModify]
  split
  case isTrue here => rw [here, hr, Option.map_some]
  case isFalse => rfl

theorem State.amendedTo_entGet {s : State} {k : Nat} {r : EntRecord} (hr : entGet s.ent.table k = some r)
    (q : EntRecord) (m : Nat) :
    entGet (s.amendedTo k q).ent.table m = if m = k then some q else entGet s.ent.table m :=
  entGet_entModify_of_some hr (fun _ => q) m

/-- What an AMEND that passes its checks does with the record found and the actions carried (R143). -/
def State.entAmended (s : State) (a : AmendEntArgs) : State :=
  match entFind s.ent.table a.media, actionsOf a.actions with
  | some (k, r), some x => s.amendedTo k (amendedEnt x a r)
  | _, _ => s

/-- AMEND ENTITLEMENT makes its checks in the order of R143. -/
theorem amendEntitlement_eq (a : AmendEntArgs) (s : State) :
    amendEntitlement a s = s.answerBy 0x61 (amendEntitlementChecks a s) (s.entAmended a) := by
  simp only [amendEntitlementChecks, State.answerBy_cons, State.answerBy_nil, State.entAmended]
  cases actions : actionsOf a.actions with
  | none =>
    have bad := actionsOf_eq_none actions
    rw [if_pos (by rw [decide_eq_true_eq]; omega)]
    simp only [amendEntitlement, actions]
  | some x =>
    obtain ⟨bits, rides, group⟩ := actionsOf_eq_some actions
    have range := valuesInRange_eq_false_iff bits
    simp only [amendEntitlement, actions]
    refine if_congr ?range rfl ?_
    case range =>
      have codes := bits.codes_le rides group
      rw [decide_eq_true_eq, range]
      refine or_congr Iff.rfl ?_
      omega
    cases found : entFind s.ent.table a.media with
    | none => rfl
    | some p =>
      obtain ⟨k, r⟩ := p
      refine (if_congr Iff.rfl rfl (if_congr ?_ rfl rfl)).trans (if_neg Bool.false_ne_true).symm
      rw [actionsAllowed_eq bits]
      rfl

/-- Settles O37: the checks of R143 in order, and then the record as its actions amend it. -/
theorem amendEntitlementChangesTheFieldsNamed : Obligations.AmendEntitlementChangesTheFieldsNamed := by
  intro a s wf
  refine ⟨fun rc d refused => ?_, fun k r found passed => ?_⟩
  · exact ⟨_, congrArg Host.Outcome.next ((amendEntitlement_eq a s).trans (State.answerBy_of_refused refused)), rfl,
      (s.reply_touches _ _ _).1⟩
  · intro q
    have amended : s.entAmended a = s.amendedTo k q := by
      have first := check_passed passed List.mem_cons_self
      rw [decide_eq_false_iff_not] at first
      cases actions : actionsOf a.actions with
      | none =>
        have bad := actionsOf_eq_none actions
        omega
      | some x =>
        obtain ⟨bits, rides, -⟩ := actionsOf_eq_some actions
        simp only [State.entAmended, found, actions, amendedEnt_eq bits rides]
        rfl
    refine ⟨_, congrArg Host.Outcome.next ((amendEntitlement_eq a s).trans (State.answerBy_of_passed passed)), ?_⟩
    rw [amended]
    refine ⟨rfl, ((s.setEnt_touches _).trans (State.reply_touches _ _ _ _)).1, ?_, fun m other => ?_⟩
    · rw [State.amendedTo_entGet (entGet_of_entFind found), if_pos rfl]
    · rw [State.amendedTo_entGet (entGet_of_entFind found), if_neg other]

end Sys2Proof.Machine
end

-- ==== BLOCK, UNBLOCK and RETIRE ENTITLEMENT ====
section
/-! BLOCK, UNBLOCK and RETIRE ENTITLEMENT act on the record that carries the number given (R140, R144, R145). -/

namespace Sys2Proof.Machine

section
variable {m : Media} {s : State}

/-! ### A number not found -/

theorem setBlocked_of_absent (hm : m ≠ 0) (absent : entFind s.ent.table m = none) (code : Byte) (blocked : Bool) :
    setBlocked code blocked m s = s.reply code .notFound [] := by
  simp only [setBlocked, if_neg hm, absent]

theorem retireEntitlement_of_absent (hm : m ≠ 0) (absent : entFind s.ent.table m = none) :
    retireEntitlement m s = s.reply 0x64 .notFound [] := by
  simp only [retireEntitlement, if_neg hm, absent]

/-! ### The record found -/

variable {k : Nat} {r : EntRecord}

/-- BLOCK or UNBLOCK of a record found: its state, and nothing else of the table (R144). -/
theorem setBlocked_of_found (hm : m ≠ 0) (found : entFind s.ent.table m = some (k, r)) (code : Byte) (blocked : Bool) :
    let t := setBlocked code blocked m s
    answered t .ok code (be1 (if blocked then 1 else 0)) ∧ keptBut [.ent, .result] s t
      ∧ ∀ n, entGet t.ent.table n = if n = k then some { r with blocked := blocked } else entGet s.ent.table n := by
  simp only [setBlocked, if_neg hm, found]
  exact ⟨rfl, ((s.setEnt_touches _).trans (State.reply_touches _ _ _ _)).1,
    entGet_entModify_of_some (entGet_of_entFind found) fun r => { r with blocked := blocked }⟩

/-- RETIRE of a record found: refused where it has a claim, and otherwise its slot emptied (R145). -/
theorem retireEntitlement_of_found (hm : m ≠ 0) (found : entFind s.ent.table m = some (k, r)) :
    retireEntitlement m s = if r.claim.isSome then s.reply 0x64 .inUse []
      else (s.setEnt (entErase s.ent.table k)).reply 0x64 .ok (be2 k) := by
  simp only [retireEntitlement, if_neg hm, found]

end

/-- Settles O38, command by command: the number 0, a number not found, and the record found. -/
theorem blockAndRetireActOnTheRecordFound : Obligations.BlockAndRetireActOnTheRecordFound := by
  intro m s wf
  have refuses {c : Instr} {code : Byte} {rc : ResultCode} (h : exec c s = .next (s.reply code rc [])) :
      ∃ t, exec c s = .next t ∧ answered t rc code [] ∧ keptBut [.result] s t :=
    ⟨_, h, rfl, (s.reply_touches _ _ _).1⟩
  refine ⟨fun zero => ?zero, fun hm absent => ?absent, fun k r hm found => ⟨?block, ?unblock, fun claim => ?inUse,
    fun free => ?retire⟩⟩
  case zero =>
    subst zero
    simp only [List.forall_mem_cons, List.not_mem_nil, false_imp_iff, implies_true, and_true]
    exact ⟨refuses rfl, refuses rfl, refuses rfl⟩
  case absent =>
    simp only [List.forall_mem_cons, List.not_mem_nil, false_imp_iff, implies_true, and_true]
    exact ⟨refuses (congrArg Host.Outcome.next (setBlocked_of_absent hm absent _ _)),
      refuses (congrArg Host.Outcome.next (setBlocked_of_absent hm absent _ _)),
      refuses (congrArg Host.Outcome.next (retireEntitlement_of_absent hm absent))⟩
  case block => exact ⟨_, rfl, setBlocked_of_found hm found 0x62 true⟩
  case unblock => exact ⟨_, rfl, setBlocked_of_found hm found 0x63 false⟩
  case inUse =>
    exact refuses (congrArg Host.Outcome.next ((retireEntitlement_of_found hm found).trans (if_pos claim)))
  case retire =>
    refine ⟨_, congrArg Host.Outcome.next ((retireEntitlement_of_found hm found).trans (if_neg (by simp [free]))), rfl,
      ((s.setEnt_touches _).trans (State.reply_touches _ _ _ _)).1, entGet_entErase _ _⟩

end Sys2Proof.Machine
end

-- ==== LOOK UP and COUNT ====
section
/-! LOOK UP ENTITLEMENT and COUNT read the table and change nothing; the figures of COUNT are those of its slots (R146,
R147). -/

namespace Sys2Proof.Machine

/-! ### The fill of a bucket -/

/-- The occupied slots of a bucket, from the lowest. -/
def occupiedSlots (t : EntTable) (b : Nat) : List Nat := (bucketSlots b).filter fun k => (entGet t k).isSome

theorem mem_bucketSlots_iff {b k : Nat} : k ∈ bucketSlots b ↔ bucketOf k = b := by
  rw [mem_bucketSlots, bucketOf]
  omega

/-- In a table of rising slots the records of a bucket stand in its occupied slots (R147). -/
theorem bucketFill_eq {t : EntTable} (wf : entWf t = true) (b : Nat) :
    bucketFill t b = (occupiedSlots t b).length := by
  have listed : ((t.filter fun p => bucketOf p.1 == b).map (·.1)) = occupiedSlots t b := by
    have order : ((t.filter fun p => bucketOf p.1 == b).map (·.1)).Pairwise (· < ·) :=
      (slots_rise wf).sublist (List.filter_sublist.map _)
    have slots : (occupiedSlots t b).Pairwise (· < ·) :=
      List.Pairwise.sublist List.filter_sublist (by simp [bucketSlots])
    refine order.sortedLT.eq_of_mem_iff slots.sortedLT fun k => ?_
    simp only [List.mem_map, List.mem_filter, occupiedSlots, mem_bucketSlots_iff, beq_iff_eq, Option.isSome_iff_exists,
      entGet_eq_some_iff (slots_rise wf)]
    constructor
    · rintro ⟨⟨j, r⟩, ⟨held, bucket⟩, rfl⟩
      exact ⟨bucket, r, held⟩
    · rintro ⟨bucket, r, held⟩
      exact ⟨(k, r), ⟨held, bucket⟩, rfl⟩
  rw [bucketFill, ← listed, List.length_map]

/-- The buckets with a record, from the lowest. -/
def usedBuckets (t : EntTable) : List Nat := t.map fun p => bucketOf p.1

theorem usedBuckets_rise {t : EntTable} (wf : entWf t = true) : (usedBuckets t).Pairwise (· ≤ ·) := by
  have slots := slots_rise wf
  rw [List.pairwise_map] at slots
  exact List.pairwise_map.2 (slots.imp fun lower => Nat.div_le_div_right (Nat.le_of_lt lower))

theorem bucketFill_pos_iff (t : EntTable) (b : Nat) : 0 < bucketFill t b ↔ b ∈ usedBuckets t := by
  rw [bucketFill, List.length_pos_iff_exists_mem, usedBuckets, List.mem_map]
  simp only [List.mem_filter, beq_iff_eq]

/-- The fullest fill is the greatest of the fills of the buckets with a record (R147). -/
theorem fullestFill_eq (t : EntTable) : fullestFill t = ((usedBuckets t).map (bucketFill t)).foldr max ⊥ := by
  rw [usedBuckets, List.map_map, List.foldr_map]
  rfl

/-- No bucket is fuller than the fullest (R147). -/
theorem bucketFill_le_fullestFill (t : EntTable) (b : Nat) : bucketFill t b ≤ fullestFill t := by
  rcases Nat.eq_zero_or_pos (bucketFill t b) with zero | used
  · exact zero ▸ Nat.zero_le _
  · rw [fullestFill_eq]
    exact List.le_max_of_le (List.mem_map_of_mem ((bucketFill_pos_iff t b).1 used)) le_rfl

/-- Where a record stands, a bucket with a record has the fullest fill. -/
theorem fullestFill_attained {t : EntTable} (h : t ≠ []) : ∃ b ∈ usedBuckets t, bucketFill t b = fullestFill t := by
  have fills : (usedBuckets t).map (bucketFill t) ≠ [] := by simpa [usedBuckets] using h
  rw [fullestFill_eq]
  exact List.mem_map.1 (List.maximum_mem (List.foldr_max_of_ne_nil fills).symm)

/-- The first element of a rising list with a property is the least with it. -/
theorem le_of_find?_eq_some {l : List Nat} (order : l.Pairwise (· ≤ ·)) {p : Nat → Bool} {a b : Nat}
    (found : l.find? p = some a) (hb : b ∈ l) (hp : p b = true) : a ≤ b := by
  obtain ⟨-, before, after, rfl, none⟩ := List.find?_eq_some_iff_append.1 found
  rcases List.mem_append.1 hb with early | late
  · have fails := none b early
    rw [hp] at fails
    cases fails
  · rcases List.mem_cons.1 late with rfl | later
    · exact Nat.le_refl _
    · exact (List.pairwise_cons.1 (List.pairwise_append.1 order).2.1).1 b later

/-- The bucket of COUNT has the fullest fill, and every lower one a lesser fill (R147). -/
theorem fullestBucket_least {t : EntTable} (wf : entWf t = true) :
    bucketFill t (fullestBucket t) = fullestFill t ∧ ∀ b, b < fullestBucket t → bucketFill t b < fullestFill t := by
  have chosen : fullestBucket t = ((usedBuckets t).find? fun b => bucketFill t b == fullestFill t).getD 0 := rfl
  rw [chosen]
  cases found : (usedBuckets t).find? fun b => bucketFill t b == fullestFill t with
  | none =>
    have empty : t = [] := by
      by_contra some
      obtain ⟨b, used, fullest⟩ := fullestFill_attained some
      exact List.find?_eq_none.1 found b used (beq_iff_eq.2 fullest)
    subst empty
    exact ⟨rfl, nofun⟩
  | some a =>
    have fullest : bucketFill t a = fullestFill t := by
      simpa using List.find?_some found
    refine ⟨fullest, fun b lower => Nat.lt_of_le_of_ne (bucketFill_le_fullestFill t b) fun same => ?_⟩
    have used : 0 < bucketFill t b := by
      rw [same, ← fullest]
      exact (bucketFill_pos_iff t a).2 (List.mem_of_find?_eq_some found)
    exact absurd (le_of_find?_eq_some (usedBuckets_rise wf) found ((bucketFill_pos_iff t b).1 used) (beq_iff_eq.2 same))
      (Nat.not_le.2 lower)

/-! ### The answers of LOOK UP -/

theorem lookUpEntitlement_long (m : Media) (hm : m ≠ 0) (s : State) :
    lookUpEntitlement (.long 0 m) s = s.lookUpAnswer (entFind s.ent.table m) :=
  if_neg (not_or.2 ⟨not_not.2 rfl, hm⟩)

theorem lookUpEntitlement_short {k : BitVec 16} (inside : k.toNat ≤ 4095) (s : State) :
    lookUpEntitlement (.short 1 k) s = s.lookUpAnswer ((entGet s.ent.table k.toNat).map fun r => (k.toNat, r)) :=
  if_neg (not_or.2 ⟨not_not.2 rfl, Nat.not_lt.2 inside⟩)

/-- Settles O39: LOOK UP by its two forms, and COUNT by the fill of the buckets. -/
theorem lookUpAndCountReadTheTable : Obligations.LookUpAndCountReadTheTable := by
  intro s
  have answers {a : LookUpArgs} {rc : ResultCode} {d : List Byte} (h : lookUpEntitlement a s = s.reply 0x65 rc d) :
      ∃ t, exec (.lookUpEntitlement (.fields a)) s = .next t ∧ answered t rc 0x65 d ∧ keptBut [.result] s t :=
    ⟨_, congrArg Host.Outcome.next h, rfl, (s.reply_touches _ _ _).1⟩
  refine ⟨fun f m => ⟨fun bad => ?_, fun hm absent => ?_, fun hm k r found => ?_⟩,
    fun f k => ⟨fun bad => ?_, fun inside empty => ?_, fun inside r held => ?_⟩, fun wf => ?count⟩
  · exact answers (if_pos bad)
  · exact answers (by rw [lookUpEntitlement_long m hm, absent]; rfl)
  · exact answers (by rw [lookUpEntitlement_long m hm, found]; rfl)
  · exact answers (if_pos bad)
  · exact answers (by rw [lookUpEntitlement_short inside, empty]; rfl)
  · exact answers (by rw [lookUpEntitlement_short inside, held]; rfl)
  case count =>
    intro fill
    have filled (b : Nat) : fill b = bucketFill s.ent.table b := (bucketFill_eq wf b).symm
    obtain ⟨fullest, least⟩ := fullestBucket_least wf
    refine ⟨_, fullestFill s.ent.table, fullestBucket s.ent.table, rfl, (s.reply_touches _ _ _).1, rfl,
      (filled _).trans fullest, fun b => ?_, fun b lower => ?_⟩
    · rw [filled]
      exact bucketFill_le_fullestFill _ b
    · rw [filled]
      exact least b lower

end Sys2Proof.Machine
end

-- ==== SET GATE ====
section
/-! SET GATE makes its checks in order and then replaces the map entry of the gate it addresses (R155). -/

namespace Sys2Proof.Machine

/-- A station byte that passes the first check of SET GATE is a station or NONE (R155). -/
theorem gateStationOf_eq (x : Byte) :
    gateStationOf x = if 3 < x.toNat ∧ x ≠ 0xFF then none else some (if x = 0xFF then none else some x.toNat) := by
  unfold gateStationOf
  by_cases away : x = 0xFF
  · rw [if_pos away, if_neg fun h => h.2 away, if_pos away]
  · rw [if_neg away, if_neg away, ← ite_not]
    exact if_congr (by rw [and_iff_left away, Nat.not_le]) rfl rfl

/-- SET GATE makes its checks in the order of R155 and then maps the gate. -/
theorem setGate_eq (a : GateArgs) (s : State) :
    setGate a s = s.answerBy 0x70 (setGateChecks a s)
      ((s.modGate a.address.toNat fun g =>
          g.mapped (if a.station = 0xFF then none else some a.station.toNat) (a.enable == 1)).reply 0x70 .ok []) := by
  simp only [setGate, gateStationOf_eq, setGateChecks, State.answerBy_cons, State.answerBy_nil, decide_eq_true_eq,
    ← State.claimOf_isSome]
  by_cases code : 3 < a.station.toNat ∧ a.station ≠ 0xFF
  · rw [if_pos code, if_pos (.inr (.inr (.inl code)))]
  · rw [if_neg code]
    refine if_congr (by rw [or_iff_right code]) rfl (if_congr ?_ rfl rfl)
    by_cases noStation : a.station = 0xFF <;> simp [noStation]

/-- An entry mapped by a byte that is a flag (R155). -/
theorem Gate.mapped_of_flag (g : Gate) (station : Option Nat) {x : Byte} (flag : ¬1 < x.toNat) :
    g.mapped station (x == 1)
      = if g.enabled = true ∧ x = 0 then
          { g with station := station, enabled := false, online := false, misses := 0, replyPending := false }
        else { g with station := station, enabled := decide (x = 1) } := by
  have either : x = 0 ∨ x = 1 := by bv_omega
  rcases either with rfl | rfl <;> cases hg : g.enabled <;> simp [Gate.mapped, hg]

/-- Settles O40: the checks in order, and then the one entry that the accepted command maps. -/
theorem setGateChangesOneEntry : Obligations.SetGateChangesOneEntry := by
  intro a s _
  have run : exec (.setGate (.fields a)) s = .next (setGate a s) := rfl
  rw [run, setGate_eq]
  refine ⟨fun rc d refused => ?_, fun passed g hg => ?_⟩
  · rw [State.answerBy_of_refused refused]
    exact ⟨_, rfl, rfl, (s.reply_touches _ _ _).1⟩
  · intro station
    let f : Gate → Gate := fun g => g.mapped station (a.enable == 1)
    have flag : ¬1 < a.enable.toNat := fun beyond => by
      have := check_passed passed (List.mem_cons_self ..)
      exact of_decide_eq_false this (.inr (.inr (.inr beyond)))
    have replied := (s.modGate a.address.toNat f).reply_touches 0x70 .ok []
    rw [State.answerBy_of_passed passed]
    refine ⟨_, rfl, rfl, ((s.modGate_touches _ f).trans replied).1, fun m away => ?_, ?_⟩
    · rw [replied.1.gate (by decide), State.modGate_gate_other s f away]
    · rw [replied.1.gate (by decide), State.modGate_gate_same, hg, Option.map_some, ← g.mapped_of_flag station flag]

end Sys2Proof.Machine
end

-- ==== The poll arbiter ====
section
/-! The poll arbiter: whose turn it is in a class, what a slot carries, and what the slot leaves where it carries a
broadcast, a poll or nothing (R157 to R161, section 11.5). -/

namespace Sys2Proof.Machine

/-! ### Turns -/

/-- In a list that rises strictly the first member with a property is the least one with it. -/
theorem find?_of_least {l : List Nat} (sorted : l.Pairwise (· < ·)) {p : Nat → Bool} {k : Nat} (hk : k ∈ l)
    (hp : p k = true) (least : ∀ j ∈ l, p j = true → k ≤ j) : l.find? p = some k := by
  induction l with
  | nil => cases hk
  | cons x l ih =>
    obtain ⟨above, sorted⟩ := List.pairwise_cons.1 sorted
    cases hx : p x with
    | true =>
      have first : k = x := (List.mem_cons.1 hk).resolve_right fun later =>
        absurd (above k later) (Nat.not_lt.2 (least x (List.mem_cons_self ..) hx))
      rw [List.find?_cons_of_pos hx, first]
    | false =>
      have later : k ∈ l := (List.mem_cons.1 hk).resolve_left fun first => by rw [first, hx] at hp; cases hp
      rw [List.find?_cons_of_neg (by simp [hx])]
      exact ih sorted later fun j hj => least j (List.mem_cons_of_mem _ hj)

/-- The gate whose turn it is in a class is the one that the arbiter takes (R158). -/
theorem nextGate_of_turn {cls : List Nat} (sorted : cls.Pairwise (· < ·)) {ptr k : Nat}
    (turn : nextInTurn (· ∈ cls) ptr k) : nextGate cls ptr = some k := by
  obtain ⟨hk, ⟨above, least⟩ | ⟨last, least⟩⟩ := turn
  · have found : cls.find? (fun k => decide (ptr < k)) = some k :=
      find?_of_least sorted hk (decide_eq_true above) fun j hj h => least j hj (of_decide_eq_true h)
    simp only [nextGate, found]
  · have beyond : cls.find? (fun k => decide (ptr < k)) = none :=
      List.find?_eq_none.2 fun j hj => by simpa using last j hj
    have first : cls.find? (fun _ => true) = some k := find?_of_least sorted hk rfl fun j hj _ => least j hj
    simp only [nextGate, beyond]
    cases cls with
    | nil => cases hk
    | cons x l => exact first

theorem nextGate_eq_none {cls : List Nat} (empty : ∀ j, j ∉ cls) (ptr : Nat) : nextGate cls ptr = none := by
  rw [List.eq_nil_iff_forall_not_mem.2 empty]
  rfl

/-! ### The classes -/

theorem mem_gateAddresses (k : Nat) : k ∈ gateAddresses ↔ 1 ≤ k ∧ k ≤ 16 := by
  simp only [gateAddresses, List.mem_cons, List.not_mem_nil, or_false]
  omega

theorem State.gate_address {s : State} (length : s.adm.gates.length = 16) {k : Nat} {g : Gate}
    (hg : s.gate k = some g) : 1 ≤ k ∧ k ≤ 16 := by
  unfold State.gate at hg
  split at hg
  · cases hg
  · have := (List.getElem?_eq_some_iff.1 hg).1
    omega

section
variable {s : State}

theorem State.normalClass_sorted (s : State) : s.normalClass.Pairwise (· < ·) :=
  List.Pairwise.filter _ (by decide)

theorem State.urgentClass_sorted (s : State) : s.urgentClass.Pairwise (· < ·) :=
  List.Pairwise.filter _ s.normalClass_sorted

theorem State.mem_normalClass (length : s.adm.gates.length = 16) (k : Nat) : k ∈ s.normalClass ↔ normalGate s k := by
  rw [State.normalClass, List.mem_filter, mem_gateAddresses, normalGate]
  cases hg : s.gate k with
  | none => simp
  | some g => simp [State.gate_address length hg]

theorem State.mem_urgentClass (length : s.adm.gates.length = 16) (k : Nat) : k ∈ s.urgentClass ↔ urgentGate s k := by
  rw [State.urgentClass, List.mem_filter, State.mem_normalClass length, normalGate, urgentGate, Bool.or_eq_true,
    State.claimOf_isSome]
  cases s.gate k <;> simp

theorem normalGate_of_urgentGate {k : Nat} (h : urgentGate s k) : normalGate s k := by
  obtain ⟨g, hg, enabled, -⟩ := h
  exact ⟨g, hg, enabled⟩

theorem State.nextGate_normal (length : s.adm.gates.length = 16) {ptr k : Nat}
    (turn : nextInTurn (normalGate s) ptr k) : nextGate s.normalClass ptr = some k :=
  nextGate_of_turn s.normalClass_sorted (by simpa only [State.mem_normalClass length] using turn)

theorem State.nextGate_urgent (length : s.adm.gates.length = 16) {ptr k : Nat}
    (turn : nextInTurn (urgentGate s) ptr k) : nextGate s.urgentClass ptr = some k :=
  nextGate_of_turn s.urgentClass_sorted (by simpa only [State.mem_urgentClass length] using turn)

theorem State.nextGate_no_urgent (length : s.adm.gates.length = 16) (empty : ∀ j, ¬urgentGate s j) (ptr : Nat) :
    nextGate s.urgentClass ptr = none :=
  nextGate_eq_none (by simpa only [State.mem_urgentClass length] using empty) ptr

theorem State.nextGate_no_normal (length : s.adm.gates.length = 16) (empty : ∀ j, ¬normalGate s j) (ptr : Nat) :
    nextGate s.normalClass ptr = none :=
  nextGate_eq_none (by simpa only [State.mem_normalClass length] using empty) ptr

/-! ### The choice -/

theorem State.countAfterSlot_eq (s : State) : s.adm.countAfterSlot = pollCountAfter s := by
  unfold AdmState.countAfterSlot pollCountAfter nextPollCount
  cases s.adm.slotPolls <;> rfl

/-- The arbiter chooses by the count after the slot that ends, and by the classes as they stand (R158). -/
theorem State.endSlot_slotChoice (silent : s.adm.broadcastPending = false) :
    s.endSlot.slotChoice = match nextGate s.normalClass s.adm.normalPtr with
      | some k => if pollCountAfter s = 3 then .normalPoll k else s.urgentOrNormal
      | none => s.urgentOrNormal := by
  have away : ¬s.endSlot.adm.broadcastPending = true := by simp [State.endSlot, silent]
  rw [← s.countAfterSlot_eq]
  exact if_neg away

/-- A broadcast goes first (R158). -/
theorem State.endSlot_slotChoice_broadcast (pending : s.adm.broadcastPending = true) :
    s.endSlot.slotChoice = .broadcast :=
  if_pos pending

/-- The normal class has its turn every fourth poll, and where no gate is urgent (R158). -/
theorem State.endSlot_slotChoice_normal (length : s.adm.gates.length = 16) (silent : s.adm.broadcastPending = false)
    {k : Nat} (turn : nextInTurn (normalGate s) s.adm.normalPtr k)
    (due : pollCountAfter s = 3 ∨ ∀ j, ¬urgentGate s j) : s.endSlot.slotChoice = .normalPoll k := by
  simp only [State.endSlot_slotChoice silent, State.nextGate_normal length turn, State.urgentOrNormal]
  rcases due with fourth | empty
  · simp [fourth]
  · simp [State.nextGate_no_urgent length empty]

/-- The urgent class has its turn at the other polls (R158). -/
theorem State.endSlot_slotChoice_urgent (length : s.adm.gates.length = 16) (silent : s.adm.broadcastPending = false)
    {k : Nat} (turn : nextInTurn (urgentGate s) s.adm.urgentPtr k) (early : pollCountAfter s ≠ 3) :
    s.endSlot.slotChoice = .urgentPoll k := by
  simp only [State.endSlot_slotChoice silent, State.urgentOrNormal, State.nextGate_urgent length turn, if_neg early]
  cases nextGate s.normalClass s.adm.normalPtr <;> rfl

theorem State.endSlot_slotChoice_nothing (length : s.adm.gates.length = 16) (silent : s.adm.broadcastPending = false)
    (empty : ∀ j, ¬normalGate s j) : s.endSlot.slotChoice = .nothing := by
  have idle (j : Nat) : ¬urgentGate s j := fun h => empty j (normalGate_of_urgentGate h)
  simp only [State.endSlot_slotChoice silent, State.urgentOrNormal, State.nextGate_no_normal length empty,
    State.nextGate_no_urgent length idle]

end

/-! ### The slot -/

theorem State.modGate_of_gate {s : State} {k : Nat} {g : Gate} (hg : s.gate k = some g) (f : Gate → Gate) :
    s.modGate k f = { s with adm := { s.adm with gates := s.adm.gates.set (k - 1) (f g) } } := by
  simp only [State.modGate, hg]

theorem pollFrame_eq (k : Nat) (g : Gate) (b : Boarding) :
    pollFrame k g b = withCrc ([BitVec.ofNat 8 k, BitVec.ofNat 8 (toggleCode g.toggle + 16 * boardingCode b)]
      ++ answerBytes (if g.replyPending then g.answer else .noAnswer)) := by
  rw [pollFrame, be1_eq, be1_eq]
  rfl

/-- What a poll of a gate makes of the admission state (R158, R159, R161). -/
theorem State.sendPoll_adm {s : State} {k : Nat} {g : Gate} (hg : s.gate k = some g) :
    (s.sendPoll k).adm = { (s.modGate k fun x => { x with replyPending := false }).adm with
      lastFrame := pollFrame k g (s.boardingTold g.station)
      polled := some k
      windowDue := some (s.now + pollFrameTime + responseWindow)
      slotPolls := true } := by
  simp only [State.sendPoll, hg]

/-- A poll leaves the slot timer, the poll count, the pointers and the boarding states (R156 to R158). -/
theorem State.sendPoll_timer (s : State) (k : Nat) :
    (s.sendPoll k).adm.pollDue = s.adm.pollDue ∧ (s.sendPoll k).adm.pollCount = s.adm.pollCount
      ∧ (s.sendPoll k).adm.boarding = s.adm.boarding
      ∧ (s.sendPoll k).adm.broadcastPending = s.adm.broadcastPending
      ∧ (s.sendPoll k).adm.normalPtr = s.adm.normalPtr ∧ (s.sendPoll k).adm.urgentPtr = s.adm.urgentPtr := by
  cases hg : s.gate k with
  | none => simp [State.sendPoll, hg]
  | some g => simp [State.sendPoll_adm hg, State.modGate_of_gate hg]

/-- The gate whose poll is sent is polled with the frame of the state as it stands (R159, R161). -/
theorem State.sendPoll_pollsGate {s : State} {k : Nat} {g : Gate} (hg : s.gate k = some g) :
    pollsGate s.now k g s (s.sendPoll k) := by
  let f : Gate → Gate := fun x => { x with replyPending := false }
  have adm := State.sendPoll_adm hg
  have gate (j : Nat) : (s.sendPoll k).gate j = (s.modGate k f).gate j := by rw [State.gate, adm]; rfl
  refine ⟨congrArg AdmState.polled adm, congrArg AdmState.windowDue adm,
    (congrArg AdmState.lastFrame adm).trans (pollFrame_eq k g _), congrArg AdmState.slotPolls adm, ?_, fun j away => ?_⟩
  · rw [gate, State.modGate_gate_same, hg, Option.map_some]
  · rw [gate, State.modGate_gate_other s f away]

/-- A slot that has begun, ahead of its frame: the slot before is over, and the timer restarts (R157, R158). -/
def State.restartSlot (s : State) : State :=
  { s.endSlot with adm := { s.endSlot.adm with
      pollDue := some (s.now + ms (s.par 0x90)), polled := none, windowDue := none } }

section
variable {s : State}

theorem State.beginSlot_broadcast (choice : s.endSlot.slotChoice = .broadcast) :
    s.beginSlot = { s.restartSlot with adm := { s.restartSlot.adm with
      broadcastPending := false, lastFrame := broadcastFrame s.adm.boarding } } := by
  simp only [State.beginSlot, choice]
  rfl

theorem State.beginSlot_normal {k : Nat} (choice : s.endSlot.slotChoice = .normalPoll k) :
    s.beginSlot = { s.restartSlot with adm := { s.restartSlot.adm with normalPtr := k } }.sendPoll k := by
  simp only [State.beginSlot, choice]
  rfl

theorem State.beginSlot_urgent {k : Nat} (choice : s.endSlot.slotChoice = .urgentPoll k) :
    s.beginSlot = { s.restartSlot with adm := { s.restartSlot.adm with urgentPtr := k } }.sendPoll k := by
  simp only [State.beginSlot, choice]
  rfl

theorem State.beginSlot_nothing (choice : s.endSlot.slotChoice = .nothing) : s.beginSlot = s.restartSlot := by
  simp only [State.beginSlot, choice]
  rfl

/-- Whatever a slot carries, its timer restarts, the count of the slot before is taken, and the boarding states stay
with no new broadcast of them (R156 to R158). -/
theorem State.beginSlot_timer (s : State) :
    s.beginSlot.adm.pollDue = some (s.now + ms (s.par 0x90)) ∧ s.beginSlot.adm.boarding = s.adm.boarding
      ∧ s.beginSlot.adm.pollCount = pollCountAfter s
      ∧ (s.adm.broadcastPending = false → s.beginSlot.adm.broadcastPending = false) := by
  rw [← s.countAfterSlot_eq]
  have polls (n m k : Nat) : _ := State.sendPoll_timer
    { s.restartSlot with adm := { s.restartSlot.adm with normalPtr := n, urgentPtr := m } } k
  cases choice : s.endSlot.slotChoice with
  | broadcast => rw [State.beginSlot_broadcast choice]; exact ⟨rfl, rfl, rfl, fun _ => rfl⟩
  | normalPoll k =>
    rw [State.beginSlot_normal choice]
    obtain ⟨due, count, boarding, pending, -⟩ := polls k s.adm.urgentPtr k
    exact ⟨due, boarding, count, pending.trans⟩
  | urgentPoll k =>
    rw [State.beginSlot_urgent choice]
    obtain ⟨due, count, boarding, pending, -⟩ := polls s.adm.normalPtr k k
    exact ⟨due, boarding, count, pending.trans⟩
  | nothing => rw [State.beginSlot_nothing choice]; exact ⟨rfl, rfl, rfl, id⟩

/-- A slot of the normal class (R158, R159). -/
theorem State.beginSlot_pollsNormal {k : Nat} {g : Gate} (choice : s.endSlot.slotChoice = .normalPoll k)
    (hg : s.gate k = some g) :
    pollsGate s.now k g s s.beginSlot ∧ s.beginSlot.adm.normalPtr = k
      ∧ s.beginSlot.adm.urgentPtr = s.adm.urgentPtr := by
  let u : State := { s.restartSlot with adm := { s.restartSlot.adm with normalPtr := k } }
  obtain ⟨-, -, -, -, normal, urgent⟩ := u.sendPoll_timer k
  have polled : pollsGate u.now k g u (u.sendPoll k) := State.sendPoll_pollsGate hg
  rw [State.beginSlot_normal choice]
  exact ⟨polled, normal, urgent⟩

/-- A slot of the urgent class (R158, R159). -/
theorem State.beginSlot_pollsUrgent {k : Nat} {g : Gate} (choice : s.endSlot.slotChoice = .urgentPoll k)
    (hg : s.gate k = some g) :
    pollsGate s.now k g s s.beginSlot ∧ s.beginSlot.adm.urgentPtr = k
      ∧ s.beginSlot.adm.normalPtr = s.adm.normalPtr := by
  let u : State := { s.restartSlot with adm := { s.restartSlot.adm with urgentPtr := k } }
  obtain ⟨-, -, -, -, normal, urgent⟩ := u.sendPoll_timer k
  have polled : pollsGate u.now k g u (u.sendPoll k) := State.sendPoll_pollsGate hg
  rw [State.beginSlot_urgent choice]
  exact ⟨polled, urgent, normal⟩

end

/-! ### POLL_SLOT -/

theorem exec_pollSlot_waits {s : State} {due : Nat} (hd : s.adm.pollDue = some due) (awaited : s.adm.polled.isSome) :
    exec .pollSlot s = .next { s with now := max s.now due, adm := { s.adm with pollDue := none } } := by
  simp only [exec, execPollSlot, hd, onExpiry, State.advance_adm, awaited, if_true]
  rfl

theorem exec_pollSlot_begins {s : State} {due : Nat} (hd : s.adm.pollDue = some due) (idle : s.adm.polled = none) :
    exec .pollSlot s = .next (s.advance due).beginSlot := by
  simp only [exec, execPollSlot, hd, onExpiry, State.advance_adm, idle]
  rfl

theorem broadcastFrame_eq (l : List Boarding) :
    broadcastFrame l = withCrc [0, BitVec.ofNat 8 (l.foldr (fun b acc => boardingCode b + 4 * acc) 0)] := by
  rw [broadcastFrame, be1_eq]
  rfl

/-! ### The broadcast -/

theorem boardingCode_lt (b : Boarding) : boardingCode b < 4 := by cases b <;> decide

/-- Station k lies in bits 2k + 1 and 2k of the boarding byte (section 11.5). -/
theorem boardingByte_bits (b : Nat → Boarding) {k : Nat} (hk : k < 4) :
    ((BitVec.ofNat 8 ([b 0, b 1, b 2, b 3].foldr (fun x acc => boardingCode x + 4 * acc) 0)).extractLsb' (2 * k)
      2).toNat = boardingCode (b k) := by
  have h0 := boardingCode_lt (b 0)
  have h1 := boardingCode_lt (b 1)
  have h2 := boardingCode_lt (b 2)
  have h3 := boardingCode_lt (b 3)
  simp only [BitVec.extractLsb'_toNat, BitVec.toNat_ofNat, Nat.shiftRight_eq_div_pow, List.foldr_cons, List.foldr_nil]
  interval_cases k <;> omega

/-- Settles O58: the slot carries the broadcast, built from the boarding states as derived, and no gate is awaited in
it. -/
theorem broadcastCarriesTheBoardingStates : Obligations.BroadcastCarriesTheBoardingStates := by
  intro s due hd idle pending inv
  have begun := State.beginSlot_broadcast (s := s.advance due) (State.endSlot_slotChoice_broadcast pending)
  refine ⟨_, _, exec_pollSlot_begins hd idle, ?_, fun k hk => boardingByte_bits s.stationBoarding hk, ?_⟩
  · rw [begun, ← inv]
    exact broadcastFrame_eq s.adm.boarding
  · rw [begun]
    exact ⟨rfl, rfl, rfl, exec_gateResponse_of_idle rfl⟩

end Sys2Proof.Machine
end

-- ==== The slot that waits ====
section
/-! A slot that waits for a response: what handles the response neither reads the slot timer nor changes it, so that the
slot begins in the state that the response leaves (R157, R161; log 23). -/

namespace Sys2Proof.Machine

/-! ### Operations that leave the admission state alone -/

/-- The admission state and the timebase are replaced, and attention causes join the set. -/
def State.aside (s : State) (x : AdmState) (now : Nat) (causes : BitVec 16) : State :=
  { s with now := now, adm := x, lnk := { s.lnk with attention := s.lnk.attention ||| causes } }

/-- An operation that neither reads nor changes the admission state and the timebase, and that reads no attention
cause. -/
def Aloof (f : State → State) : Prop := ∀ s x now causes, f (s.aside x now causes) = (f s).aside x now causes

theorem Aloof.comp {f g : State → State} (hg : Aloof g) (hf : Aloof f) : Aloof fun s => g (f s) :=
  fun s x now causes => (congrArg g (hf s x now causes)).trans (hg (f s) x now causes)

section
variable (s : State) (x : AdmState) (now : Nat) (causes : BitVec 16)

theorem State.aside_self : s.aside s.adm s.now 0 = s := by simp [State.aside]

@[simp] theorem State.aside_adm : (s.aside x now causes).adm = x := rfl
@[simp] theorem State.aside_now : (s.aside x now causes).now = now := rfl
@[simp] theorem State.aside_ent : (s.aside x now causes).ent = s.ent := rfl

@[simp] theorem State.aside_aside (y : AdmState) (n : Nat) (more : BitVec 16) :
    (s.aside x now causes).aside y n more = s.aside y n (causes ||| more) := by
  simp [State.aside, BitVec.or_assoc]

@[simp] theorem State.aside_car (c : Car) : (s.aside x now causes).car c = s.car c := by cases c <;> rfl

@[simp] theorem State.aside_record (c : Car) : (s.aside x now causes).record c = s.record c := by cases c <;> rfl

theorem State.setCar_aside (c : Car) (y : CarState) :
    (s.aside x now causes).setCar c y = (s.setCar c y).aside x now causes := by cases c <;> rfl

theorem State.setRecord_aside (c : Car) (r : Option StopRecord) :
    (s.aside x now causes).setRecord c r = (s.setRecord c r).aside x now causes := by cases c <;> rfl

theorem State.setLoad_aside (c : Car) (n : Nat) :
    (s.aside x now causes).setLoad c n = (s.setLoad c n).aside x now causes := by cases c <;> rfl

theorem State.weigh_aside (c : Car) (n : Nat) : (s.aside x now causes).weigh c n = s.weigh c n := by cases c <;> rfl

theorem State.raise_aside (c : Attention) :
    (s.aside x now causes).raise c = (s.raise c).aside x now causes := by
  simp only [State.aside, State.raise, BitVec.or_assoc, BitVec.or_comm causes]

end

theorem Aloof.adm {f : State → State} (h : Aloof f) (s : State) : (f s).adm = s.adm := by
  have same := h s s.adm s.now 0
  rw [s.aside_self] at same
  rw [same, State.aside_adm]

theorem State.modRecord_aloof (c : Car) (f : StopRecord → StopRecord) : Aloof fun s => s.modRecord c f := by
  intro s x now causes
  simp only [State.modRecord, State.aside_record]
  cases s.record c with
  | none => rfl
  | some r => exact s.setRecord_aside x now causes c _

theorem State.enterReady_aloof (c : Car) : Aloof fun s => s.enterReady c := by
  intro s x now causes
  simp only [State.enterReady, State.aside_record]
  cases s.record c with
  | none => rfl
  | some r => simp only [State.weigh_aside, State.setRecord_aside, State.setLoad_aside, State.raise_aside]

theorem State.tryReady_aloof (c : Car) : Aloof fun s => s.tryReady c := by
  intro s x now causes
  simp only [State.tryReady, State.aside_record]
  cases s.record c with
  | none => rfl
  | some r =>
    dsimp only
    split
    · exact State.enterReady_aloof c s x now causes
    · rfl

theorem State.lowerHeld_aloof (c : Car) (n : Nat) : Aloof fun s => s.lowerHeld c n :=
  (State.tryReady_aloof c).comp (State.modRecord_aloof c _)

theorem State.addBoarded_aloof (c : Car) (n : Nat) (late : Bool) : Aloof fun s => s.addBoarded c n late := by
  intro s x now causes
  simp only [State.addBoarded, State.aside_record, State.aside_car]
  cases s.record c with
  | none => rfl
  | some r => exact s.setCar_aside x now causes c _

theorem State.detachClaim_aloof (slot : Nat) : Aloof fun s => s.detachClaim slot := fun _ _ _ _ => rfl

theorem State.commitSlot_aloof (slot station n : Nat) : Aloof fun s => s.commitSlot slot station n := by
  intro s x now causes
  simp only [State.commitSlot, State.aside_ent]
  cases entGet s.ent.table slot <;> rfl

theorem State.onTimeCommit_aloof (slot station n : Nat) : Aloof fun s => s.onTimeCommit slot station n :=
  (State.commitSlot_aloof slot station n).comp (State.detachClaim_aloof slot)

theorem State.lateCommit_aloof (m : Media) (station n : Nat) : Aloof fun s => s.lateCommit m station n := by
  intro s x now causes
  simp only [State.lateCommit, State.aside_ent]
  cases entFind s.ent.table m with
  | none => rfl
  | some found =>
    dsimp only
    split
    · rfl
    · exact State.commitSlot_aloof _ station n s x now causes

/-! ### Operations that leave the slot timer alone -/

/-- The poll slot timer is replaced. -/
def State.setPollDue (s : State) (d : Option Nat) : State := { s with adm := { s.adm with pollDue := d } }

/-- An operation that neither reads nor changes the poll slot timer. -/
def DueBlind (f : State → State) : Prop := ∀ s d, f (s.setPollDue d) = (f s).setPollDue d

theorem State.setPollDue_eq_aside (s : State) (d : Option Nat) :
    s.setPollDue d = s.aside { s.adm with pollDue := d } s.now 0 := by simp [State.setPollDue, State.aside]

theorem Aloof.dueBlind {f : State → State} (h : Aloof f) : DueBlind f := fun s d => by
  have same := h s s.adm s.now 0
  rw [s.aside_self] at same
  rw [State.setPollDue_eq_aside, h, State.setPollDue_eq_aside, h.adm, same, State.aside_now, State.aside_aside]

theorem DueBlind.comp {f g : State → State} (hg : DueBlind g) (hf : DueBlind f) : DueBlind fun s => g (f s) :=
  fun s d => (congrArg g (hf s d)).trans (hg (f s) d)

theorem DueBlind.pollDue {f : State → State} (h : DueBlind f) (s : State) : (f s).adm.pollDue = s.adm.pollDue := by
  have same : f s = (f s).setPollDue s.adm.pollDue := h s s.adm.pollDue
  rw [same]
  rfl

section
variable (s : State) (d : Option Nat)

@[simp] theorem State.setPollDue_gate (k : Nat) : (s.setPollDue d).gate k = s.gate k := rfl
@[simp] theorem State.setPollDue_claimOf (k : Nat) : (s.setPollDue d).claimOf k = s.claimOf k := rfl
@[simp] theorem State.setPollDue_ownClaim (k : Nat) (id : Byte) :
    (s.setPollDue d).ownClaim k id = s.ownClaim k id := rfl
@[simp] theorem State.setPollDue_ownMemory (k : Nat) (id : Byte) :
    (s.setPollDue d).ownMemory k id = s.ownMemory k id := rfl
@[simp] theorem State.setPollDue_record (c : Car) : (s.setPollDue d).record c = s.record c := by cases c <;> rfl
@[simp] theorem State.setPollDue_recordAt (k : Nat) : (s.setPollDue d).recordAt k = s.recordAt k := rfl
@[simp] theorem State.setPollDue_inPhase (c : Car) (p : StopPhase) : (s.setPollDue d).inPhase c p = s.inPhase c p := by
  cases c <;> rfl
@[simp] theorem State.setPollDue_boardingTold (k : Option Nat) :
    (s.setPollDue d).boardingTold k = s.boardingTold k := rfl
@[simp] theorem State.setPollDue_stationBoarding (k : Nat) :
    (s.setPollDue d).stationBoarding k = s.stationBoarding k := rfl
@[simp] theorem State.setPollDue_recordRefusal (r : EntRecord) (k : Nat) :
    (s.setPollDue d).recordRefusal r k = s.recordRefusal r k := rfl
@[simp] theorem State.setPollDue_goesOffline (g : Gate) : (s.setPollDue d).goesOffline g = s.goesOffline g := rfl
@[simp] theorem State.setPollDue_ent : (s.setPollDue d).ent = s.ent := rfl
@[simp] theorem State.setPollDue_boarding : (s.setPollDue d).adm.boarding = s.adm.boarding := rfl

end

theorem State.modGate_dueBlind (a : Nat) (f : Gate → Gate) : DueBlind fun s => s.modGate a f := by
  intro s d
  simp only [State.modGate, State.setPollDue_gate]
  cases s.gate a <;> rfl

theorem State.dropClaim_dueBlind (id : Byte) : DueBlind fun s => s.dropClaim id := fun _ _ => rfl

theorem State.endAwait_dueBlind : DueBlind State.endAwait := fun _ _ => rfl

theorem State.advance_dueBlind (n : Nat) : DueBlind fun s => s.advance n := fun _ _ => rfl

theorem State.deriveBoarding_dueBlind : DueBlind State.deriveBoarding := by
  intro s d
  simp only [State.deriveBoarding, State.setPollDue_stationBoarding, State.setPollDue_boarding,
    apply_ite (State.setPollDue · d)]
  rfl

theorem State.miss_dueBlind (a : Nat) : DueBlind fun s => s.miss a := by
  intro s d
  simp only [State.miss, State.setPollDue_gate, State.setPollDue_goesOffline, State.modGate_dueBlind a _ s d]
  cases s.gate a with
  | none => rfl
  | some g => dsimp only; split <;> rfl

theorem State.goodResponse_dueBlind (a : Nat) (h : Health) : DueBlind fun s => s.goodResponse a h := by
  intro s d
  simp only [State.goodResponse, State.setPollDue_gate, State.modGate_dueBlind a _ s d]
  cases s.gate a with
  | none => rfl
  | some g => dsimp only; split <;> rfl

/-! ### Messages -/

theorem State.lapseClaim_dueBlind (x : Claim) : DueBlind fun s => s.lapseClaim x := by
  intro s d
  have lowered := (((State.dropClaim_dueBlind x.id).comp (State.detachClaim_aloof x.slot).dueBlind).comp
    (State.lowerHeld_aloof x.car x.persons).dueBlind) s d
  simp only [State.lapseClaim, State.setPollDue_record, State.setPollDue_gate] at lowered ⊢
  rw [lowered]
  exact State.modGate_dueBlind x.gate _ _ d

theorem State.lapseOwn_dueBlind (a : Nat) : DueBlind fun s => s.lapseOwn a := by
  intro s d
  simp only [State.lapseOwn, State.setPollDue_claimOf]
  cases s.claimOf a with
  | none => rfl
  | some x => exact State.lapseClaim_dueBlind x s d

theorem AdmState.freshId_congr {x y : AdmState} (h : ∀ id, x.idHeld id = y.idHeld id) (n : Nat) (id : Byte) :
    x.freshId n id = y.freshId n id := by
  induction n generalizing id with
  | zero => rfl
  | succ n ih => simp only [AdmState.freshId, h, ih]

theorem State.setPollDue_issue (s : State) (d : Option Nat) : (s.setPollDue d).adm.issue = s.adm.issue :=
  AdmState.freshId_congr (fun _ => rfl) _ _

theorem State.openClaim_dueBlind (a slot : Nat) (r : EntRecord) (c : Car) (n : Nat) :
    DueBlind fun s => s.openClaim a slot r c n := by
  intro s d
  simp only [State.openClaim, State.setPollDue_issue, (State.modRecord_aloof c _).dueBlind s d]
  rfl

/-- A state with a reply, its slot timer replaced. -/
def withDue (p : State × Answer) (d : Option Nat) : State × Answer := (p.1.setPollDue d, p.2)

theorem State.admitRecord_setPollDue (s : State) (d : Option Nat) (a k slot : Nat) (r : EntRecord) :
    (s.setPollDue d).admitRecord a k slot r = withDue (s.admitRecord a k slot r) d := by
  simp only [State.admitRecord, State.setPollDue_recordRefusal, State.setPollDue_recordAt, State.setPollDue_issue,
    State.openClaim_dueBlind a slot r _ _ s d]
  cases s.recordRefusal r k with
  | some why => rfl
  | none =>
    cases s.recordAt k with
    | none => rfl
    | some x => dsimp only; split <;> rfl

theorem State.present_setPollDue (s : State) (d : Option Nat) (a : Nat) (m : Media) :
    (s.setPollDue d).present a m = withDue (s.present a m) d := by
  simp only [State.present, State.lapseOwn_dueBlind a s d, State.setPollDue_gate, State.setPollDue_boardingTold,
    State.setPollDue_ent, State.admitRecord_setPollDue]
  cases boardingReason ((s.lapseOwn a).boardingTold (((s.lapseOwn a).gate a).bind (·.station))) with
  | some why => rfl
  | none => cases entFind (s.lapseOwn a).ent.table m <;> rfl

theorem State.abandonClaim_dueBlind (x : Claim) : DueBlind fun s => s.abandonClaim x :=
  ((State.dropClaim_dueBlind x.id).comp (State.detachClaim_aloof x.slot).dueBlind).comp
    (State.lowerHeld_aloof x.car x.persons).dueBlind

theorem State.settleClaim_dueBlind (a : Nat) (x : Claim) (n : Nat) : DueBlind fun s => s.settleClaim a x n := fun s d =>
  (((State.dropClaim_dueBlind x.id).comp (State.onTimeCommit_aloof x.slot _ _).dueBlind).comp
    ((State.lowerHeld_aloof x.car x.persons).comp (State.addBoarded_aloof x.car _ false)).dueBlind) s d

theorem State.countLate_dueBlind (m : Memory) (n : Nat) : DueBlind fun s => s.countLate m n := by
  intro s d
  simp only [State.countLate, State.setPollDue_inPhase]
  cases m.record with
  | none => rfl
  | some c =>
    dsimp only
    split
    · exact (State.addBoarded_aloof c n true).dueBlind s d
    · rfl

theorem State.clearMemory_dueBlind (a : Nat) : DueBlind fun s => s.clearMemory a := State.modGate_dueBlind a _

theorem State.latePassage_dueBlind (a : Nat) (m : Memory) (n : Nat) : DueBlind fun s => s.latePassage a m n :=
  ((State.clearMemory_dueBlind a).comp (State.lateCommit_aloof m.media m.station _).dueBlind).comp
    (State.countLate_dueBlind m _)

theorem State.passed_setPollDue (s : State) (d : Option Nat) (a : Nat) (id : Byte) (n : Nat) :
    (s.setPollDue d).passed a id n = withDue (s.passed a id n) d := by
  simp only [State.passed, State.setPollDue_ownClaim, State.setPollDue_ownMemory, State.abandonClaim_dueBlind _ s d,
    State.settleClaim_dueBlind a _ n s d, State.latePassage_dueBlind a _ n s d]
  cases s.ownClaim a id with
  | some x => dsimp only; split <;> rfl
  | none =>
    cases s.ownMemory a id with
    | some m => dsimp only; split <;> rfl
    | none => rfl

theorem State.abandoned_setPollDue (s : State) (d : Option Nat) (a : Nat) (id : Byte) :
    (s.setPollDue d).abandoned a id = withDue (s.abandoned a id) d := by
  simp only [State.abandoned, State.setPollDue_ownClaim, State.setPollDue_ownMemory, State.abandonClaim_dueBlind _ s d,
    State.clearMemory_dueBlind a s d]
  cases s.ownClaim a id with
  | some x => rfl
  | none => dsimp only; split <;> rfl

theorem State.answer_dueBlind (a : Nat) (toggle : Bool) (x : Answer) : DueBlind fun s => s.answer a toggle x :=
  State.modGate_dueBlind a _

theorem State.repeatAnswer_dueBlind (a : Nat) : DueBlind fun s => s.repeatAnswer a := State.modGate_dueBlind a _

/-- What a taken message leaves with its reply (R163 to R169). -/
def State.taken (s : State) (a : Nat) : GateMessage → State × Answer
  | .noMessage => (s, .noAnswer)
  | .present media => s.present a media
  | .passed id n => s.passed a id n
  | .abandoned id => s.abandoned a id

/-- A message is taken and answered, or answered again where it is a duplicate (R163). -/
theorem State.takeMessage_eq (s : State) (a : Nat) (toggle : Bool) {m : GateMessage} (message : m ≠ .noMessage) :
    s.takeMessage a toggle m = if ((s.gate a).bind (·.toggle)) == some toggle then s.repeatAnswer a
      else (s.taken a m).1.answer a toggle (s.taken a m).2 := by
  cases m with
  | noMessage => exact absurd rfl message
  | present | passed | abandoned => rfl

theorem State.taken_setPollDue (s : State) (d : Option Nat) (a : Nat) (m : GateMessage) :
    (s.setPollDue d).taken a m = withDue (s.taken a m) d := by
  cases m with
  | noMessage => rfl
  | present media => exact s.present_setPollDue d a media
  | passed id n => exact s.passed_setPollDue d a id n
  | abandoned id => exact s.abandoned_setPollDue d a id

theorem State.takeMessage_dueBlind (a : Nat) (toggle : Bool) (m : GateMessage) :
    DueBlind fun s => s.takeMessage a toggle m := by
  intro s d
  by_cases message : m = .noMessage
  · rw [message]
    rfl
  · simp only [State.takeMessage_eq _ a toggle message, State.setPollDue_gate, State.taken_setPollDue, withDue,
      State.repeatAnswer_dueBlind a s d, State.answer_dueBlind a toggle _ _ d]
    split <;> rfl

theorem State.handleResponse_dueBlind (a : Nat) (ok : Bool) (frame : List Byte) :
    DueBlind fun s => s.handleResponse a ok frame := by
  intro s d
  simp only [State.handleResponse]
  cases gateFrameOf a ok frame with
  | none => exact State.miss_dueBlind a s d
  | some f =>
    exact (State.deriveBoarding_dueBlind.comp ((State.takeMessage_dueBlind a f.toggle f.message).comp
      (State.goodResponse_dueBlind a f.health))) s d

/-! ### The slot that waits -/

/-- A slot that begins restarts its timer, whatever it stood at (R157). -/
theorem State.beginSlot_setPollDue (s : State) (d : Option Nat) : (s.setPollDue d).beginSlot = s.beginSlot := rfl

/-- Where an operation leaves the slot timer alone, a slot that waits for it begins in the state that it leaves while
the timer runs (R157; log 23). -/
theorem DueBlind.beginWaiting {f : State → State} (h : DueBlind f) {s : State} (waits : s.adm.pollDue = none)
    (n : Nat) :
    (f s).beginWaiting = (f (s.setPollDue (some n))).beginWaiting.beginSlot := by
  have waiting : (f s).beginWaiting = (f s).beginSlot := if_pos (by rw [h.pollDue, waits]; rfl)
  have running : (f (s.setPollDue (some n))).beginWaiting = f (s.setPollDue (some n)) :=
    State.beginWaiting_of_due (by rw [h.pollDue]; rfl)
  rw [waiting, running, h s, State.beginSlot_setPollDue]

theorem exec_gateResponse_of_polled {s : State} {a : Nat} (polled : s.adm.polled = some a) (ok : Bool)
    (frame : List Byte) :
    exec (.gateResponse ok frame) s = .next (s.endAwait.handleResponse a ok frame).beginWaiting := by
  simp only [exec, execGateResponse, polled]

theorem exec_responseWindowExpiry_of_polled {s : State} {a due : Nat} (polled : s.adm.polled = some a)
    (window : s.adm.windowDue = some due) :
    exec .responseWindowExpiry s = .next ((s.advance due).endAwait.miss a).beginWaiting := by
  simp only [exec, execResponseWindowExpiry, window, onExpiry, State.advance_adm, polled]

/-- Settles O57: a slot that waits begins in the state that the response or its expiry leaves, and another slot is the
arbiter's choice. -/
theorem pollSlotFollowsTheArbiter : Obligations.PollSlotFollowsTheArbiter := by
  refine ⟨fun s t ok frame awaited waits run => ?response, fun s t awaited window waits run => ?expiry,
    fun s due hd length => ?slot⟩
  case response =>
    obtain ⟨a, polled⟩ := Option.isSome_iff_exists.1 awaited
    have handled := (State.handleResponse_dueBlind a ok frame).comp State.endAwait_dueBlind
    obtain rfl := Host.Outcome.next.inj
      ((exec_gateResponse_of_polled (s := s.setPollDue (some 0)) polled ok frame).symm.trans run)
    rw [exec_gateResponse_of_polled polled, handled.beginWaiting waits 0]
  case expiry =>
    obtain ⟨a, polled⟩ := Option.isSome_iff_exists.1 awaited
    obtain ⟨due, window⟩ := Option.isSome_iff_exists.1 window
    have missed := ((State.miss_dueBlind a).comp State.endAwait_dueBlind).comp (State.advance_dueBlind due)
    obtain rfl := Host.Outcome.next.inj
      ((exec_responseWindowExpiry_of_polled (s := s.setPollDue (some 0)) polled window).symm.trans run)
    rw [exec_responseWindowExpiry_of_polled polled window, missed.beginWaiting waits 0]
  case slot =>
    intro now count
    refine ⟨exec_pollSlot_waits hd, fun idle => ?_⟩
    let u := s.advance due
    have run := exec_pollSlot_begins hd idle
    have kept := (execPollSlot_touches s _ run).1
    have time : u.now = u.beginSlot.now := u.beginSlot_touches.1 .time (by decide)
    obtain ⟨timer, boarding, counts, quiet⟩ := u.beginSlot_timer
    refine ⟨u.beginSlot, run, kept, time.symm, timer, boarding, counts, fun pending => ?broadcast, fun silent =>
      ⟨quiet silent, fun k g hg turn due => ?normal, fun k g hg turn early => ?urgent, fun empty => ?nothing⟩⟩
    case broadcast =>
      rw [State.beginSlot_broadcast (s := u) (State.endSlot_slotChoice_broadcast pending)]
      exact ⟨rfl, rfl, rfl, rfl, rfl, rfl, rfl, broadcastFrame_eq s.adm.boarding⟩
    case normal =>
      exact State.beginSlot_pollsNormal (s := u) (State.endSlot_slotChoice_normal length silent turn due) hg
    case urgent =>
      exact State.beginSlot_pollsUrgent (s := u) (State.endSlot_slotChoice_urgent length silent turn early) hg
    case nothing =>
      rw [State.beginSlot_nothing (s := u) (State.endSlot_slotChoice_nothing length silent empty)]
      exact ⟨rfl, rfl, rfl, rfl, rfl⟩

end Sys2Proof.Machine
end

-- ==== A response whatever its message ====
section
/-! A poll that is missed, and what a gate's good response leaves whatever its message (R158, R161 to R163, R192). -/

namespace Sys2Proof.Machine

/-! ### The frame -/

/-- The bytes of a message between head and CRC, by its kind code (R192). -/
def messageLength (kind : Nat) : Nat := if kind = 0 then 0 else if kind = 1 then 5 else if kind = 2 then 2 else 1

/-- A kind code and a body give a message exactly where the code is known and the length is its own (R192). -/
theorem gateMessageOf_isSome (kind : Nat) (body : List Byte) :
    (gateMessageOf kind body).isSome = decide (kind ≤ 3 ∧ body.length = messageLength kind) := by
  match kind with
  | 0 => cases body <;> rfl
  | 1 => match body with
    | [] | [_] | [_, _] | [_, _, _] | [_, _, _, _] | [_, _, _, _, _] => rfl
    | _ :: _ :: _ :: _ :: _ :: _ :: l => simp [gateMessageOf, messageLength]
  | 2 => match body with
    | [] | [_] | [_, _] => rfl
    | _ :: _ :: _ :: l => simp [gateMessageOf, messageLength]
  | 3 => match body with
    | [] | [_] => rfl
    | _ :: _ :: l => simp [gateMessageOf, messageLength]
  | n + 4 => rfl

/-- The message is NONE exactly for the kind code 0 (R192). -/
theorem gateMessageOf_noMessage {kind : Nat} {body : List Byte} {m : GateMessage}
    (h : gateMessageOf kind body = some m) : m = .noMessage ↔ kind = 0 := by
  unfold gateMessageOf at h
  split at h
  case h_5 => cases h
  all_goals
    obtain rfl := Option.some.inj h
    simp

/-- A frame whose CRC does not fit is no good response (R161, R188). -/
theorem gateFrameOf_of_bad (a : Nat) (ok : Bool) {frame : List Byte} (bad : crcGood frame = false) :
    gateFrameOf a ok frame = none := by
  unfold gateFrameOf
  split
  · rw [bad]; simp
  · rfl

/-! ### A missed poll -/

/-- What a missed poll leaves: its response is no longer awaited, the gate counts it and goes OFFLINE at the limit, and
no other gate changes (R158, R162). -/
def missedPoll (a : Nat) (g : Gate) (s t : State) : Prop :=
  keptBut [.poll, .gates, .attention] s t ∧ t.adm.polled = none ∧ t.adm.windowDue = none
  ∧ t.adm.pollDue = s.adm.pollDue ∧ (∀ j, j ≠ a → t.gate j = s.gate j)
  ∧ let off := g.online && decide (s.par 0x91 ≤ min 255 (g.misses + 1))
    t.gate a = some { g with misses := min 255 (g.misses + 1), online := g.online && !off }
    ∧ t.lnk.attention = s.lnk.attention ||| (if off then attentionMask .gate else 0)

section
variable {s : State} {a : Nat} {g : Gate}

/-- The miss counted at its gate, and the GATE cause where the gate goes OFFLINE (R162). -/
theorem State.miss_of_gate (hg : s.gate a = some g) :
    let off := s.goesOffline g
    let u := s.modGate a fun x => { x with misses := min 255 (x.misses + 1), online := x.online && !off }
    s.miss a = u.aside u.adm u.now (if off then attentionMask .gate else 0) := by
  simp only [State.miss, hg]
  cases s.goesOffline g
  · exact (State.aside_self _).symm
  · rfl

theorem State.endAwait_miss (hg : s.gate a = some g) : missedPoll a g s (s.endAwait.miss a) := by
  have kept := s.endAwait_touches.trans (s.endAwait.miss_touches a)
  have missed := State.miss_of_gate (s := s.endAwait) hg
  let off := s.endAwait.goesOffline g
  let f : Gate → Gate := fun x => { x with misses := min 255 (x.misses + 1), online := x.online && !off }
  have gate (j : Nat) : (s.endAwait.miss a).gate j = (s.endAwait.modGate a f).gate j := by rw [missed]; rfl
  have own := s.endAwait.modGate_gate_same a f
  have adm : (s.endAwait.miss a).adm = (s.endAwait.modGate a f).adm := by rw [missed]; rfl
  have bus := State.modGate_of_gate (s := s.endAwait) hg f
  refine ⟨kept.1, ?_, ?_, ?_, fun j away => ?_, ?_, ?_⟩
  · rw [adm, bus]; rfl
  · rw [adm, bus]; rfl
  · rw [adm, bus]; rfl
  · exact (gate j).trans (s.endAwait.modGate_gate_other f away)
  · exact (gate a).trans (own.trans (congrArg (Option.map f) hg))
  · rw [missed, bus]; rfl

theorem exec_gateResponse_of_miss {ok : Bool} {frame : List Byte} (polled : s.adm.polled = some a)
    (due : s.adm.pollDue.isSome) (bad : gateFrameOf a ok frame = none) :
    exec (.gateResponse ok frame) s = .next (s.endAwait.miss a) := by
  have pollDue := ((State.miss_dueBlind a).comp State.endAwait_dueBlind).pollDue s
  rw [exec_gateResponse_of_polled polled, State.handleResponse, bad, State.beginWaiting_of_due (pollDue ▸ due)]

theorem exec_responseWindowExpiry_of_running {n : Nat} (polled : s.adm.polled = some a)
    (window : s.adm.windowDue = some n) (due : s.adm.pollDue.isSome) :
    exec .responseWindowExpiry s = .next ((s.advance n).endAwait.miss a) := by
  have pollDue := ((State.miss_dueBlind a).comp State.endAwait_dueBlind).pollDue (s.advance n)
  rw [exec_responseWindowExpiry_of_polled polled window, State.beginWaiting_of_due (pollDue ▸ due)]

end

/-! ### The other gates -/

/-- No gate but the addressed one changes. -/
def sameOtherGates (a : Nat) (s t : State) : Prop := ∀ j, j ≠ a → t.gate j = s.gate j

theorem sameOtherGates.trans {a : Nat} {s t u : State} (h : sameOtherGates a s t) (k : sameOtherGates a t u) :
    sameOtherGates a s u := fun j away => (k j away).trans (h j away)

theorem sameOtherGates.of_touches {parts : List Part} {s t : State} (h : touches parts s t)
    (hp : Part.gates ∉ parts) (a : Nat) : sameOtherGates a s t := fun j _ => h.1.gate hp j

theorem State.modGate_sameOtherGates (s : State) (a : Nat) (f : Gate → Gate) : sameOtherGates a s (s.modGate a f) :=
  fun _ away => s.modGate_gate_other f away

theorem State.gate_of_gates {s t : State} (h : t.adm.gates = s.adm.gates) (k : Nat) : t.gate k = s.gate k := by
  rw [State.gate, h, State.gate]

/-- The opening of a claim leaves the gates (R165). -/
theorem State.openClaim_gates (s : State) (a slot : Nat) (r : EntRecord) (c : Car) (n : Nat) :
    (s.openClaim a slot r c n).adm.gates = s.adm.gates :=
  (congrArg AdmState.gates ((State.modRecord_aloof c fun q => { q with held := q.held + n }).adm s) :)

theorem State.lapseOwn_sameOtherGates (s : State) (a : Nat) : sameOtherGates a s (s.lapseOwn a) := by
  unfold State.lapseOwn
  split
  case h_2 => exact fun _ _ => rfl
  case h_1 x hx =>
    have ended := s.abandonClaim_touchesLess x
    have remembered := (s.abandonClaim x).modGate_sameOtherGates x.gate
    rw [State.claimOf_gate hx] at remembered
    rw [State.lapseClaim, State.claimOf_gate hx]
    exact (sameOtherGates.of_touches ended (by decide) a).trans (remembered _)

theorem State.present_sameOtherGates (s : State) (a : Nat) (m : Media) : sameOtherGates a s (s.present a m).1 := by
  refine (s.lapseOwn_sameOtherGates a).trans fun j _ => ?_
  simp only [State.present, State.admitRecord]
  split
  · rfl
  · split
    · rfl
    · split
      · rfl
      · rfl
      · split
        · rfl
        · exact State.gate_of_gates (State.openClaim_gates _ a _ _ _ _) j

theorem State.passed_sameOtherGates (s : State) (a : Nat) (id : Byte) (n : Nat) :
    sameOtherGates a s (s.passed a id n).1 := by
  simp only [State.passed]
  split
  case h_1 x _ =>
    dsimp only
    split
    · exact sameOtherGates.of_touches (s.abandonClaim_touchesLess x) (by decide) a
    · exact sameOtherGates.of_touches (s.settleClaim_touchesLess a x n) (by decide) a
  case h_2 =>
    split
    case h_2 => exact fun _ _ => rfl
    case h_1 m _ =>
      dsimp only
      split
      · exact fun _ _ => rfl
      · exact (sameOtherGates.of_touches ((s.countLate_touches m _).trans (State.lateCommit_touches _ _ _ _))
          (by decide) a).trans (State.modGate_sameOtherGates _ a _)

theorem State.abandoned_sameOtherGates (s : State) (a : Nat) (id : Byte) :
    sameOtherGates a s (s.abandoned a id).1 := by
  simp only [State.abandoned]
  split
  case h_1 x _ => exact sameOtherGates.of_touches (s.abandonClaim_touchesLess x) (by decide) a
  case h_2 =>
    dsimp only
    split
    · exact s.modGate_sameOtherGates a _
    · exact fun _ _ => rfl

theorem State.takeMessage_sameOtherGates (s : State) (a : Nat) (toggle : Bool) (m : GateMessage) :
    sameOtherGates a s (s.takeMessage a toggle m) := by
  have taken : sameOtherGates a s (s.taken a m).1 := by
    cases m with
    | noMessage => exact fun _ _ => rfl
    | present media => exact s.present_sameOtherGates a media
    | passed id n => exact s.passed_sameOtherGates a id n
    | abandoned id => exact s.abandoned_sameOtherGates a id
  by_cases message : m = .noMessage
  · rw [message]
    exact fun _ _ => rfl
  · rw [State.takeMessage_eq s a toggle message]
    split
    · exact s.modGate_sameOtherGates a _
    · exact taken.trans (State.modGate_sameOtherGates _ a _)

/-! ### A good response, whatever its message -/

section
variable {s : State} {a : Nat} {g : Gate}

/-- The GATE cause of a good response: the gate was OFFLINE or its health changes (R162). -/
def Gate.news (g : Gate) (health : Health) : BitVec 16 :=
  if g.online = false ∨ g.health ≠ health then attentionMask .gate else 0

/-- The state in which a gate was heard, change by change (R161, R162). -/
theorem State.heard_eq (hg : s.gate a = some g) (health : Health) :
    s.heard a health = s.aside { s.adm with
      gates := s.adm.gates.set (a - 1) (g.heard health), polled := none, windowDue := none } s.now (g.news health) := by
  have gate : s.endAwait.gate a = some g := hg
  simp only [State.heard, State.goodResponse, gate, State.modGate_of_gate gate, Gate.news]
  split
  · rfl
  · exact (State.aside_self _).symm

theorem State.heard_sameOtherGates (s : State) (a : Nat) (health : Health) :
    sameOtherGates a s (s.heard a health) := by
  intro j away
  cases hg : s.gate a with
  | none =>
    have same : s.heard a health = s.endAwait := by
      have gate : s.endAwait.gate a = none := hg
      simp only [State.heard, State.goodResponse, gate]
    rw [same]
    rfl
  | some g =>
    rw [State.heard_eq hg, ← s.modGate_gate_other (fun _ => g.heard health) away, State.modGate_of_gate hg]
    rfl

theorem State.heard_hasAttention (hg : s.gate a = some g) {health : Health}
    (news : g.online = false ∨ g.health ≠ health) : hasAttention (s.heard a health) .gate = true := by
  rw [State.heard_eq hg, Gate.news, if_pos news]
  exact State.hasAttention_raise s .gate

/-- What a good response leaves whatever its message: no response is awaited, the slot timer runs on, no other gate
changes, and the GATE cause is raised where the gate has news (R158, R161, R162). -/
theorem State.handled_kept (hg : s.gate a = some g) (health : Health) (toggle : Bool) (m : GateMessage) :
    let t := ((s.heard a health).takeMessage a toggle m).deriveBoarding
    t.adm.polled = none ∧ t.adm.windowDue = none ∧ t.adm.pollDue = s.adm.pollDue ∧ sameOtherGates a s t
      ∧ (g.online = false ∨ g.health ≠ health → hasAttention t .gate = true) := by
  have taken := ((s.heard a health).takeMessage_touches a toggle m).trans (State.deriveBoarding_touches _)
  obtain ⟨due, -, -, -, -, polled, window, -⟩ : _ ∧ _ ∧ _ ∧ _ ∧ _ ∧ _ ∧ _ ∧ _ := taken.1 .poll (by decide)
  have heard := congrArg State.adm (State.heard_eq hg health)
  refine ⟨polled.symm.trans (congrArg AdmState.polled heard), window.symm.trans (congrArg AdmState.windowDue heard),
    due.symm.trans (congrArg AdmState.pollDue heard :), ?_, fun news => ?_⟩
  · exact ((s.heard_sameOtherGates a health).trans (State.takeMessage_sameOtherGates _ a toggle m)).trans
      (sameOtherGates.of_touches (State.deriveBoarding_touches _) (by decide) a)
  · exact taken.2.hasAttention (State.heard_hasAttention hg news)

/-- A duplicate makes the gate's last answer pending again (R163). -/
theorem State.takeMessage_duplicate {toggle : Bool} (hg : s.gate a = some g) (same : g.toggle = some toggle)
    {m : GateMessage} (message : m ≠ .noMessage) : s.takeMessage a toggle m = s.repeatAnswer a := by
  rw [State.takeMessage_eq s a toggle message, if_pos (by simp [hg, same])]

/-- Any other message is taken and answered (R163). -/
theorem State.takeMessage_new {toggle : Bool} (hg : s.gate a = some g) (new : g.toggle ≠ some toggle)
    {m : GateMessage} (message : m ≠ .noMessage) :
    (s.takeMessage a toggle m).deriveBoarding = State.replied a toggle (s.taken a m) := by
  rw [State.takeMessage_eq s a toggle message, if_neg (by simpa [hg] using new), State.replied]

end

end Sys2Proof.Machine
end

-- ==== A presentation at a gate without a claim ====
section
/-! PRESENT at a gate without a claim: the checks of R164 in order, the id of a new claim, and what its opening leaves
(R164, R165). -/

namespace Sys2Proof.Machine

/-! ### The checks in order -/

theorem refusalOf_cons (b : Bool) (why : Reason) (l : List (Bool × Reason)) :
    refusalOf ((b, why) :: l) = if b then some why else refusalOf l := by cases b <;> rfl

theorem refusalOf_append (l m : List (Bool × Reason)) : refusalOf (l ++ m) = (refusalOf l).or (refusalOf m) := by
  induction l with
  | nil => rfl
  | cons x l ih =>
    rw [List.cons_append, refusalOf_cons, refusalOf_cons, ih]
    cases x.1 <;> rfl

/-- Checks 3 to 11 of R164 on a record presented at a station. -/
def State.recordChecks (s : State) (k : Nat) (r : EntRecord) : List (Bool × Reason) :=
  [(r.blocked, .blocked), (r.claim.isSome, .inUse),
    ((r.validFrom.isSome || r.validUntil.isSome) && !s.tsr.clockSet, .noClock),
    (decide (∃ d ∈ r.validFrom, s.tsr.day < d), .notYet),
    (decide (∃ d ∈ r.validUntil, d < s.tsr.day), .expired),
    (decide (∃ m ∈ r.stations, m.getLsbD k = false), .wrongStation),
    (decide (r.kind = .period ∧ 0 < s.par 0xA1 ∧ ∃ st ∈ r.stamp, st.station = k
        ∧ s.time.count < st.day * 1440 + st.minute + s.par 0xA1), .passback),
    (decide (r.kind = .multi ∧ r.rides.getD 0 = 0), .noRides),
    (decide (r.kind = .period ∧ ∃ d ∈ r.daily, d.cap ≤
        (if s.tsr.clockSet = true ∧ d.rideDay = some s.tsr.day then d.today else 0)), .dailyLimit)]

theorem State.passback_iff (s : State) (r : EntRecord) (k : Nat) :
    s.passback r k = true ↔ r.kind = .period ∧ 0 < s.par 0xA1 ∧ ∃ st ∈ r.stamp, st.station = k
      ∧ s.time.count < st.day * 1440 + st.minute + s.par 0xA1 := by
  unfold State.passback
  cases r.kind <;> cases r.stamp <;> simp [and_assoc, and_left_comm (b := 0 < _)]

theorem State.capReached_iff (s : State) (r : EntRecord) :
    s.capReached r = true ↔ r.kind = .period ∧ ∃ d ∈ r.daily, d.cap ≤
      (if s.tsr.clockSet = true ∧ d.rideDay = some s.tsr.day then d.today else 0) := by
  unfold State.capReached State.ridesInEffect
  cases r.daily <;> simp

/-- The record is refused by the first of checks 3 to 11 that fails (R164). -/
theorem State.recordRefusal_eq (s : State) (r : EntRecord) (k : Nat) :
    s.recordRefusal r k = refusalOf (s.recordChecks k r) := by
  simp only [State.recordRefusal, State.recordChecks, refusalOf_cons, decide_eq_true_eq]
  refine if_congr Iff.rfl rfl ?_
  refine if_congr Iff.rfl rfl ?_
  refine if_congr Iff.rfl rfl ?_
  refine if_congr (by cases r.validFrom <;> simp) rfl ?_
  refine if_congr (by cases r.validUntil <;> simp) rfl ?_
  refine if_congr (by cases r.stations <;> simp) rfl ?_
  refine if_congr (s.passback_iff r k) rfl ?_
  refine if_congr (by simp) rfl ?_
  exact if_congr (s.capReached_iff r) rfl rfl

/-- Check 1 of R164: the boarding state of the gate's station. -/
def boardingChecks (b : Boarding) : List (Bool × Reason) :=
  [(decide (b = .closed), .closed), (decide (b = .suspended), .suspended), (decide (b = .outOfService), .outOfService)]

theorem boardingReason_eq (b : Boarding) : boardingReason b = refusalOf (boardingChecks b) := by cases b <;> rfl

/-- No place is left in the car at a station, or no car is there (R164 check 12). -/
def State.full (s : State) (k : Nat) : Bool := ((s.recordAt k).map fun x => decide (x.2.free = 0)).getD true

/-- The first check that fails of a number that no record carries (R164). -/
theorem refusalOf_presentChecks_none (s : State) (station : Option Nat) :
    refusalOf (presentChecks s station none) = (boardingReason (s.boardingTold station)).or (some .unknown) := by
  have checks : presentChecks s station none = boardingChecks (s.boardingTold station)
      ++ (true, .unknown) :: (presentChecks s station none).drop 4 := rfl
  rw [checks, refusalOf_append, boardingReason_eq]
  rfl

/-- The first check that fails of a record found (R164). -/
theorem refusalOf_presentChecks_some (s : State) (station : Option Nat) (r : EntRecord) :
    refusalOf (presentChecks s station (some r)) = (boardingReason (s.boardingTold station)).or
      ((s.recordRefusal r (station.getD 0)).or (if s.full (station.getD 0) then some .carFull else none)) := by
  have checks : presentChecks s station (some r) = boardingChecks (s.boardingTold station)
      ++ ((false, .unknown) :: (s.recordChecks (station.getD 0) r ++ [(s.full (station.getD 0), .carFull)])) := rfl
  rw [checks, refusalOf_append, refusalOf_cons, refusalOf_append, refusalOf_cons, boardingReason_eq,
    State.recordRefusal_eq]
  rfl

/-! ### PRESENT -/

section
variable {s : State} {a : Nat} {g : Gate} {m : Media}

theorem State.lapseOwn_of_free (free : s.claimOf a = none) : s.lapseOwn a = s := by
  simp only [State.lapseOwn, free]

/-- A presentation at a gate without a claim, step by step (R164). -/
theorem State.present_of_free (hg : s.gate a = some g) (free : s.claimOf a = none) (m : Media) :
    s.present a m = match boardingReason (s.boardingTold g.station) with
      | some why => (s, .refuse why)
      | none => match entFind s.ent.table m with
        | none => (s, .refuse .unknown)
        | some (slot, r) => s.admitRecord a (g.station.getD 0) slot r := by
  simp only [State.present, State.lapseOwn_of_free free, hg, Option.bind_some] <;> rfl

theorem State.admitRecord_refused {k slot : Nat} {r : EntRecord} {why : Reason}
    (h : (s.recordRefusal r k).or (if s.full k then some .carFull else none) = some why) :
    s.admitRecord a k slot r = (s, .refuse why) := by
  unfold State.admitRecord
  cases hr : s.recordRefusal r k with
  | some w =>
    rw [hr] at h
    obtain rfl := Option.some.inj h
    rfl
  | none =>
    rw [hr, Option.none_or] at h
    cases hk : s.recordAt k with
    | none =>
      simp only [State.full, hk] at h
      obtain rfl := Option.some.inj h
      rfl
    | some x =>
      simp only [State.full, hk, Option.map_some, Option.getD_some, decide_eq_true_eq] at h
      by_cases full : x.2.free = 0
      · rw [if_pos full] at h
        obtain rfl := Option.some.inj h
        exact if_pos full
      · rw [if_neg full] at h
        cases h

theorem State.admitRecord_admitted {k slot : Nat} {r : EntRecord} {c : Car} {q : StopRecord}
    (h : (s.recordRefusal r k).or (if s.full k then some .carFull else none) = none) (hk : s.recordAt k = some (c, q)) :
    s.admitRecord a k slot r
      = (s.openClaim a slot r c (personsAllowed r q.free),
          .admission s.adm.issue (personsAllowed r q.free) (ridesLeft r (personsAllowed r q.free))) := by
  obtain ⟨passed, room⟩ := Option.or_eq_none_iff.1 h
  simp only [State.full, hk, Option.map_some, Option.getD_some, decide_eq_true_eq, ite_eq_right_iff,
    reduceCtorEq] at room
  simp only [State.admitRecord, passed, hk, if_neg room]

/-- A presentation is refused with the first check that fails (R164). -/
theorem State.present_refused (hg : s.gate a = some g) (free : s.claimOf a = none) {why : Reason}
    (refused : refusalOf (presentChecks s g.station ((entFind s.ent.table m).map (·.2))) = some why) :
    s.present a m = (s, .refuse why) := by
  rw [State.present_of_free hg free]
  cases found : entFind s.ent.table m with
  | none =>
    rw [found, Option.map_none, refusalOf_presentChecks_none] at refused
    cases told : boardingReason (s.boardingTold g.station) with
    | some w => rw [told] at refused; obtain rfl := Option.some.inj refused; rfl
    | none => rw [told] at refused; obtain rfl := Option.some.inj refused; rfl
  | some x =>
    rw [found, Option.map_some, refusalOf_presentChecks_some] at refused
    cases told : boardingReason (s.boardingTold g.station) with
    | some w => rw [told] at refused; obtain rfl := Option.some.inj refused; rfl
    | none => rw [told, Option.none_or] at refused; exact State.admitRecord_refused refused

/-- A presentation of which no check fails opens a claim (R164, R165). -/
theorem State.present_admitted (hg : s.gate a = some g) (free : s.claimOf a = none) {k slot : Nat} {r : EntRecord}
    {c : Car} {q : StopRecord} (passed : refusalOf (presentChecks s g.station (some r)) = none)
    (found : entFind s.ent.table m = some (slot, r)) (hs : g.station = some k) (hk : s.recordAt k = some (c, q)) :
    s.present a m
      = (s.openClaim a slot r c (personsAllowed r q.free),
          .admission s.adm.issue (personsAllowed r q.free) (ridesLeft r (personsAllowed r q.free))) := by
  rw [refusalOf_presentChecks_some] at passed
  obtain ⟨told, passed⟩ := Option.or_eq_none_iff.1 passed
  simp only [State.present_of_free hg free, told, found]
  rw [hs] at passed ⊢
  exact State.admitRecord_admitted passed hk

end

/-! ### The id of a new claim -/

theorem nextId_toNat (id : Byte) : (nextId id).toNat = id.toNat % 255 + 1 := by
  have := id.isLt
  unfold nextId
  by_cases last : id = 255
  · rw [last]; rfl
  · have : id.toNat ≠ 255 := fun h => last (BitVec.eq_of_toNat_eq h)
    rw [if_neg last]
    bv_omega

/-- The ids after an id, one after the other (R165). -/
theorem nextId_iterate (id : Byte) (k : Nat) : (nextId^[k + 1] id).toNat = (id.toNat + k) % 255 + 1 := by
  induction k with
  | zero => exact nextId_toNat id
  | succ k ih =>
    rw [Function.iterate_succ_apply', nextId_toNat, ih]
    omega

/-- The ids held: those of the open claims and of the lapsed-claim memories (R165). -/
def AdmState.heldIds (x : AdmState) : List Byte :=
  x.claims.map (·.id) ++ x.gates.filterMap fun g => g.memory.map (·.id)

theorem AdmState.idHeld_iff (x : AdmState) (id : Byte) : x.idHeld id = true ↔ id ∈ x.heldIds := by
  simp only [AdmState.idHeld, AdmState.heldIds, Bool.or_eq_true, List.any_eq_true, beq_iff_eq, List.mem_append,
    List.mem_map, List.mem_filterMap, Option.map_eq_some_iff]
  refine or_congr Iff.rfl (exists_congr fun g => and_congr_right fun _ => ?_)
  cases g.memory <;> simp

/-- At most 32 ids are held, so that one of the next 33 is not (R165). -/
theorem AdmState.exists_free_id {x : AdmState} (claims : x.claims.length ≤ 16) (gates : x.gates.length ≤ 16)
    (id : Byte) : ∃ k < 33, nextId^[k + 1] id ∉ x.heldIds := by
  by_contra held
  push Not at held
  have inj : Set.InjOn (fun k => nextId^[k + 1] id) (Finset.range 33) := by
    intro j hj k hk same
    have nat := congrArg BitVec.toNat same
    simp only [nextId_iterate] at nat
    have := Finset.mem_range.1 hj
    have := Finset.mem_range.1 hk
    omega
  have inside : ∀ k ∈ Finset.range 33, nextId^[k + 1] id ∈ x.heldIds.toFinset :=
    fun k hk => List.mem_toFinset.2 (held k (Finset.mem_range.1 hk))
  have few : x.heldIds.length ≤ 32 := by
    have := List.length_filterMap_le (fun g : Gate => g.memory.map (·.id)) x.gates
    rw [AdmState.heldIds, List.length_append, List.length_map]
    omega
  have many := Finset.card_le_card_of_injOn _ inside inj
  have distinct := List.toFinset_card_le x.heldIds
  rw [Finset.card_range] at many
  omega

theorem AdmState.freshId_free {x : AdmState} {n k : Nat} (hk : k < n) {id : Byte}
    (free : nextId^[k + 1] id ∉ x.heldIds) : x.freshId n id ∉ x.heldIds := by
  induction n generalizing k id with
  | zero => cases hk
  | succ n ih =>
    rw [AdmState.freshId]
    split
    case isFalse away => rwa [x.idHeld_iff] at away
    case isTrue taken =>
      cases k with
      | zero => exact absurd ((x.idHeld_iff _).1 taken) free
      | succ k => exact ih (Nat.lt_of_succ_lt_succ hk) free

theorem nextId_ne_zero (id : Byte) : nextId id ≠ 0 := fun zero => by
  have := nextId_toNat id
  rw [zero] at this
  simp at this

theorem AdmState.freshId_ne_zero (x : AdmState) (n : Nat) (id : Byte) : x.freshId n id ≠ 0 := by
  induction n generalizing id with
  | zero => exact nextId_ne_zero id
  | succ n ih =>
    rw [AdmState.freshId]
    split
    · exact ih _
    · exact nextId_ne_zero id

/-- The id issued is held by no claim and no memory (R165). -/
theorem AdmState.issue_free {x : AdmState} (claims : x.claims.length ≤ 16) (gates : x.gates.length ≤ 16) :
    x.issue ∉ x.heldIds := by
  obtain ⟨k, hk, free⟩ := AdmState.exists_free_id claims gates x.lastClaimId
  exact AdmState.freshId_free hk free

/-! ### The opening of a claim -/

theorem State.recordAt_record {s : State} {k : Nat} {c : Car} {q : StopRecord} (h : s.recordAt k = some (c, q)) :
    s.record c = some q := by
  unfold State.recordAt at h
  split at h
  · split at h
    · cases h; assumption
    · split at h
      · cases h; assumption
      · cases h
  · split at h
    · cases h; assumption
    · cases h
  · split at h
    · cases h; assumption
    · cases h
  · cases h

/-- What the opening of a claim leaves: the id issued, the claims list, the held count and the record presented (R165).
-/
structure ClaimOpened (x : Claim) (q : StopRecord) (r : EntRecord) (s t : State) : Prop where
  issued : x.id = t.adm.lastClaimId
  claims : t.adm.claims = s.adm.claims ++ [x]
  record : t.record x.car = some { q with held := q.held + x.persons }
  other : t.record (otherCar x.car) = s.record (otherCar x.car)
  presented : entGet t.ent.table x.slot = some { r with claim := some ⟨x.gate, x.id⟩ }
  slots : ∀ m, m ≠ x.slot → entGet t.ent.table m = entGet s.ent.table m

/-- The claim that a presentation opens (R165). -/
def State.newClaim (s : State) (a slot : Nat) (r : EntRecord) (c : Car) (n : Nat) : Claim :=
  ⟨s.adm.issue, a, c, slot, r.media, n, s.now + sec (s.par 0xA0)⟩

theorem State.openClaim_opened {s : State} {slot : Nat} {r : EntRecord} {c : Car} {q : StopRecord}
    (hq : s.record c = some q) (hr : entGet s.ent.table slot = some r) (a n : Nat) :
    ClaimOpened (s.newClaim a slot r c n) q r s (s.openClaim a slot r c n) := by
  let f : StopRecord → StopRecord := fun q => { q with held := q.held + n }
  have adm : (s.modRecord c f).adm = s.adm := (State.modRecord_aloof c f).adm s
  have ent : s.ent = (s.modRecord c f).ent := (s.modRecord_touches c f).1 .ent (by decide)
  have slots (m : Nat) : entGet (s.openClaim a slot r c n).ent.table m
      = if m = slot then some { r with claim := some ⟨a, s.adm.issue⟩ } else entGet s.ent.table m := by
    have table : (s.openClaim a slot r c n).ent.table
        = entModify (s.modRecord c f).ent.table slot fun x => { x with claim := some ⟨a, s.adm.issue⟩ } := rfl
    rw [table, ← ent, entGet_entModify_of_some hr]
  exact
    { issued := rfl
      claims := congrArg (fun x : AdmState => x.claims ++ [s.newClaim a slot r c n]) adm
      record := (s.modRecord_record c f).trans (congrArg (Option.map f) hq)
      other := s.modRecord_other c f
      presented := (slots slot).trans (if_pos rfl)
      slots := fun m away => (slots m).trans (if_neg away) }

end Sys2Proof.Machine
end

-- ==== A presentation at a gate with a claim ====
section
/-! PRESENT at a gate that still holds a claim: the claim lapses first, and hearing the gate and the lapse may be taken
in either order (R163, R164, R166). -/

namespace Sys2Proof.Machine

/-! ### The lapse as a change aside -/

/-- The stop record and the entitlement record of a claim that ends without a passage (R117, R148, R166). -/
def State.withdrawn (s : State) (x : Claim) : State := (s.lowerHeld x.car x.persons).detachClaim x.slot

theorem State.withdrawn_aloof (x : Claim) : Aloof fun s => s.withdrawn x :=
  (State.detachClaim_aloof x.slot).comp (State.lowerHeld_aloof x.car x.persons)

theorem State.withdrawn_aside (s : State) (x : Claim) (y : AdmState) (now : Nat) (causes : BitVec 16) :
    (s.aside y now causes).withdrawn x = (s.withdrawn x).aside y now causes :=
  State.withdrawn_aloof x s y now causes

theorem State.withdrawn_now (s : State) (x : Claim) : (s.withdrawn x).now = s.now := by
  have time : s.now = (s.withdrawn x).now :=
    ((s.lowerHeld_touches x.car x.persons).trans (State.detachClaim_touches _ x.slot)).1 .time (by decide)
  exact time.symm

/-- A gate that remembers a claim that has lapsed, with its stop record present or not (R166). -/
def Gate.remembers (g : Gate) (x : Claim) (present : Bool) : Gate :=
  { g with memory := some ⟨x.id, x.media, x.persons, g.station.getD 0, if present then some x.car else none⟩ }

/-- The admission state after a claim of a gate has lapsed: off the list, and remembered at the gate (R166). -/
def AdmState.lapsed (y : AdmState) (x : Claim) (g : Gate) (present : Bool) : AdmState :=
  { y with
    claims := y.claims.filter fun c => c.id != x.id
    gates := y.gates.set (x.gate - 1) (g.remembers x present) }

section
variable {s : State} {x : Claim} {g : Gate}

/-- A lapse changes the admission state, and beside it the two records of the claim alone (R166). -/
theorem State.lapseClaim_eq (hg : s.gate x.gate = some g) :
    s.lapseClaim x = (s.withdrawn x).aside (s.adm.lapsed x g (s.record x.car).isSome) s.now 0 := by
  have adm := (State.withdrawn_aloof x).adm s
  have gate : ((s.withdrawn x).dropClaim x.id).gate x.gate = some g :=
    (State.gate_of_gates (congrArg AdmState.gates adm :) x.gate).trans hg
  simp only [State.lapseClaim, hg, Option.bind_some]
  refine (State.modGate_of_gate gate _).trans ?_
  simp [State.aside, AdmState.lapsed, State.dropClaim, adm, Gate.remembers, State.withdrawn_now]

theorem State.lapseClaim_gate (hg : s.gate x.gate = some g) :
    (s.lapseClaim x).gate x.gate = some (g.remembers x (s.record x.car).isSome) := by
  have ended := (s.abandonClaim_touchesLess x).1.gate (by decide) x.gate
  simp only [State.lapseClaim, hg, Option.bind_some]
  exact (State.modGate_gate_same _ _ _).trans (congrArg _ (ended.trans hg))

/-- To hear a gate and then let its claim lapse, and to do so the other way round, leave the same (R162, R166). -/
theorem State.heard_lapseClaim (hg : s.gate x.gate = some g) (health : Health) :
    (s.heard x.gate health).lapseClaim x = (s.lapseClaim x).heard x.gate health := by
  rw [State.lapseClaim_eq (State.heard_gate hg health), State.heard_eq (State.lapseClaim_gate hg), State.heard_eq hg,
    State.lapseClaim_eq hg, State.withdrawn_aside]
  simp only [State.aside_aside, State.aside_adm, State.aside_now, State.aside_record, AdmState.lapsed, List.set_set,
    BitVec.ofNat_eq_ofNat, BitVec.or_zero, BitVec.zero_or]
  rfl

/-- The time at which a claim lapses is the only trace that its deadline leaves (R166). -/
theorem State.advance_lapseClaim (hg : s.gate x.gate = some g) (due : Nat) :
    { (s.advance due).lapseClaim x with now := s.now } = s.lapseClaim x := by
  have later : s.advance due = s.aside s.adm (max s.now due) 0 := by simp [State.advance, State.aside]
  have gate : (s.advance due).gate x.gate = some g := hg
  rw [State.lapseClaim_eq gate, State.lapseClaim_eq hg, later, State.withdrawn_aside]
  simp only [State.aside_aside, State.aside_adm, State.aside_now, State.aside_record]
  simp [State.aside]

end

/-! ### The boarding states through a lapse -/

/-- What the boarding state of its station is read from in a stop record: the station, whether the record is suspended,
and whether it is in BOARDING (R156). -/
def StopRecord.told (q : StopRecord) : Nat × Bool × Bool := (q.station, q.suspended, decide (q.phase = .boarding))

theorem releasedRecord_told (q : StopRecord) (n : Nat) : (releasedRecord q n).told = q.told := by
  unfold releasedRecord
  split
  case isTrue h => simp [StopRecord.told, h.1]
  case isFalse => rfl

theorem State.lowerHeld_told (s : State) (k : Car) (n : Nat) (c : Car) :
    ((s.lowerHeld k n).record c).map StopRecord.told = (s.record c).map StopRecord.told := by
  by_cases own : k = c
  · subst own
    cases hq : s.record k with
    | none =>
      have same : s.lowerHeld k n = s := by simp [State.lowerHeld, State.modRecord, State.tryReady, hq]
      rw [same, hq]
    | some q => rw [(State.lowerHeld_of_record hq n).1, Option.map_some, Option.map_some, releasedRecord_told]
  · rw [otherCar_of_ne (Ne.symm own), State.lowerHeld_other]

/-- The record at a station, as far as its boarding state is read from it (R116, R156). -/
theorem State.recordAt_told (s : State) (k : Nat) :
    (s.recordAt k).map (fun x => x.2.told) = (((s.record .a).map StopRecord.told).filter fun x => x.1 == k).or
      (((s.record .b).map StopRecord.told).filter fun x => x.1 == k) := by
  unfold State.recordAt
  cases s.record .a with
  | none =>
    cases s.record .b with
    | none => rfl
    | some q => by_cases hq : q.station = k <;> simp [StopRecord.told, Option.filter_some, hq]
  | some r =>
    cases s.record .b with
    | none => by_cases hr : r.station = k <;> simp [StopRecord.told, Option.filter_some, hr]
    | some q =>
      by_cases hr : r.station = k
      · simp [StopRecord.told, Option.filter_some, hr]
      · by_cases hq : q.station = k <;> simp [StopRecord.told, Option.filter_some, hr, hq]

theorem State.stationBoarding_eq (s : State) (k : Nat) :
    s.stationBoarding k
      = if !s.hasGeometry || !s.inUse k || s.haul.line == .parked || s.geo.inspection then .outOfService
        else match (s.recordAt k).map (fun x => x.2.told) with
          | some x => if x.2.1 then .suspended else if x.2.2 then .opened else .closed
          | none => .closed := by
  refine if_congr Iff.rfl rfl ?_
  cases s.recordAt k with
  | none => rfl
  | some x => simp [StopRecord.told]

/-- The boarding state of a station follows from the geometry, the line state and the two records (R156). -/
theorem keptBut.stationBoarding {parts : List Part} {s t : State} (h : keptBut parts s t)
    (hp : ∀ p ∈ [Part.active, .inspection, .line], p ∉ parts)
    (records : ∀ c, (t.record c).map StopRecord.told = (s.record c).map StopRecord.told) (k : Nat) :
    t.stationBoarding k = s.stationBoarding k := by
  have active : s.geo.active = t.geo.active := h .active (hp _ (by decide))
  have inspection : s.geo.inspection = t.geo.inspection := h .inspection (hp _ (by decide))
  have line : s.haul.line = t.haul.line := h .line (hp _ (by decide))
  simp only [State.stationBoarding_eq, State.recordAt_told, records, State.hasGeometry, State.inUse, active, inspection,
    line]

/-- A lapse changes no boarding state (R117, R123, R156). -/
theorem State.lapseClaim_deriveBoarding {s : State} {x : Claim} {g : Gate} (inv : boardingInv s)
    (hg : s.gate x.gate = some g) : (s.lapseClaim x).deriveBoarding = s.lapseClaim x := by
  have told (c : Car) : ((s.lapseClaim x).record c).map StopRecord.told = (s.record c).map StopRecord.told := by
    have detached := ((s.lowerHeld x.car x.persons).detachClaim_touches x.slot).1.record (by decide) c
    rw [State.lapseClaim_eq hg, State.aside_record, ← s.lowerHeld_told x.car x.persons c]
    exact congrArg _ detached
  have same := (s.lapseClaim_touches x).1.stationBoarding (by decide) told
  have boarding : (s.lapseClaim x).adm.boarding = s.adm.boarding := by rw [State.lapseClaim_eq hg]; rfl
  refine if_pos ?_
  rw [same, same, same, same, boarding, inv]

/-! ### The claims of a gate -/

section
variable {s : State} {x : Claim} {a : Nat}

theorem State.claimOf_mem (hx : s.claimOf a = some x) : x ∈ s.adm.claims := List.mem_of_find?_eq_some hx

/-- No two open claims have one id (R165). -/
theorem claimsInv.claimById (inv : claimsInv s) (hx : x ∈ s.adm.claims) : s.claimById x.id = some x := by
  obtain ⟨ids, -⟩ := inv
  cases found : s.claimById x.id with
  | none => simpa using List.find?_eq_none.1 found x hx
  | some y =>
    have id : y.id = x.id := by simpa using List.find?_some found
    rw [List.inj_on_of_nodup_map ids (List.mem_of_find?_eq_some found) hx id]

/-- A gate whose claim has lapsed holds none (R165). -/
theorem claimsInv.claimOf_lapsed (inv : claimsInv s) {g : Gate} (hx : s.claimOf a = some x)
    (hg : s.gate x.gate = some g) : (s.lapseClaim x).claimOf a = none := by
  obtain ⟨-, gates, -⟩ := inv
  have claims : (s.lapseClaim x).adm.claims = s.adm.claims.filter fun c => c.id != x.id := by
    rw [State.lapseClaim_eq hg]
    rfl
  refine List.find?_eq_none.2 fun y hy => ?_
  rw [claims, List.mem_filter] at hy
  obtain ⟨hy, away⟩ := hy
  intro own
  have gate : y.gate = x.gate := (by simpa using own : y.gate = a).trans (State.claimOf_gate hx).symm
  rw [List.inj_on_of_nodup_map gates hy (State.claimOf_mem hx) gate] at away
  simp at away

end

/-! ### A presentation at a gate with a claim -/

/-- A presentation is that in the state that the lapse of the gate's own claim leaves (R164). -/
theorem State.present_congr {s t : State} {a : Nat} (h : s.lapseOwn a = t.lapseOwn a) (m : Media) :
    s.present a m = t.present a m := by
  simp only [State.present, h]

section
variable {s u : State} {x : Claim} {a : Nat} {g : Gate}

/-- What CLAIM LAPSE leaves of the gate's own claim, at the time it is found (R166). -/
theorem exec_claimLapse_own (inv : admissionInv s) (hg : s.gate a = some g) (hx : s.claimOf a = some x)
    (run : exec (.claimLapse x.id) s = .next u) : { u with now := s.now } = s.lapseClaim x := by
  obtain ⟨-, -, -, -, boarding, -, -, claims⟩ := inv
  have gate : s.gate x.gate = some g := (State.claimOf_gate hx).symm ▸ hg
  rw [exec_claimLapse (claims.claimById (State.claimOf_mem hx))] at run
  obtain rfl := Host.Outcome.next.inj run
  have told : boardingInv (s.advance x.due) := boarding
  rw [State.lapseClaim_deriveBoarding told gate, State.advance_lapseClaim gate]

/-- The presentation at a gate with a claim is that at the gate after the claim has lapsed (R164). -/
theorem State.present_after_lapse (inv : claimsInv s) (hg : s.gate a = some g) (hx : s.claimOf a = some x)
    (health : Health) (m : Media) : (s.heard a health).present a m = ((s.lapseClaim x).heard a health).present a m := by
  obtain rfl := State.claimOf_gate hx
  have held : (s.heard x.gate health).claimOf x.gate = some x :=
    ((s.heard_touches x.gate health).1.claimOf (by decide) _).trans hx
  have free : ((s.lapseClaim x).heard x.gate health).claimOf x.gate = none :=
    ((State.heard_touches _ x.gate health).1.claimOf (by decide) _).trans (inv.claimOf_lapsed hx hg)
  refine State.present_congr ?_ m
  rw [State.lapseOwn_of_free free, ← State.heard_lapseClaim hg health, State.lapseOwn, held]

end

end Sys2Proof.Machine
end

-- ==== The response of a gate as a whole ====
section
/-! A gate's response as a whole: a miss, a duplicate, a presentation refused or admitted, and a presentation at a gate
with a claim (R158, R161 to R166, R192). -/

namespace Sys2Proof.Machine

/-! ### The frame, good or not -/

/-- A frame of a gate is good: its characters, its address, its kind code and its length (R161, R192). -/
def goodFrame (a : Nat) (ok : Bool) (addr : Byte) (kind : Nat) (body : List Byte) : Bool :=
  ok && decide (addr.toNat = a ∧ kind ≤ 3 ∧ body.length = messageLength kind)

section
variable {a : Nat} {ok : Bool} {addr head : Byte} {body : List Byte}

theorem gateFrameOf_good (good : goodFrame a ok addr (head.toNat / 2 % 8) body = true) :
    ∃ m, gateMessageOf (head.toNat / 2 % 8) body = some m
      ∧ gateFrameOf a ok (withCrc ([addr, head] ++ body))
          = some ⟨head.getLsbD 0, healthOf (head.toNat / 64), m⟩ := by
  simp only [goodFrame, Bool.and_eq_true, decide_eq_true_eq] at good
  obtain ⟨chars, address, form⟩ := good
  have known := gateMessageOf_isSome (head.toNat / 2 % 8) body
  rw [decide_eq_true form] at known
  obtain ⟨m, hm⟩ := Option.isSome_iff_exists.1 known
  exact ⟨m, hm, by rw [gateFrameOf_withCrc, hm]; simp [chars, address]⟩

theorem gateFrameOf_not_good (bad : goodFrame a ok addr (head.toNat / 2 % 8) body = false) :
    gateFrameOf a ok (withCrc ([addr, head] ++ body)) = none := by
  rw [gateFrameOf_withCrc]
  split
  case isFalse => rfl
  case isTrue received =>
    obtain ⟨chars, address⟩ : ok = true ∧ addr.toNat = a := by simpa using received
    have unknown : (gateMessageOf (head.toNat / 2 % 8) body).isSome = false := by
      rw [gateMessageOf_isSome]
      simpa [goodFrame, chars, address] using bad
    rw [Option.isSome_eq_false_iff.1 unknown |> Option.isNone_iff_eq_none.1, Option.map_none]

end

/-- A PRESENT carries a media number of five bytes (R192). -/
theorem gateMessageOf_present {body : List Byte} {m : GateMessage} (h : gateMessageOf 1 body = some m) :
    ∃ b0 b1 b2 b3 b4, body = [b0, b1, b2, b3, b4] ∧ m = .present (b0 ++ b1 ++ b2 ++ b3 ++ b4) := by
  match body, h with
  | [b0, b1, b2, b3, b4], h => exact ⟨b0, b1, b2, b3, b4, rfl, (Option.some.inj h).symm⟩

/-! ### NONE and duplicates -/

section
variable {s : State} {a : Nat} {g : Gate}

theorem State.handled_noMessage (hg : s.gate a = some g) (health : Health) :
    let t := (s.heard a health).deriveBoarding
    t.gate a = some (g.heard health) ∧ keptBut [.poll, .gates, .attention, .boarding] s t := by
  have derived := State.deriveBoarding_touches (s.heard a health)
  exact ⟨(derived.1.gate (by decide) a).trans (State.heard_gate hg health),
    ((s.heard_touches a health).trans derived).1⟩

theorem State.handled_duplicate (hg : s.gate a = some g) (health : Health) :
    let t := ((s.heard a health).repeatAnswer a).deriveBoarding
    t.gate a = some { g.heard health with replyPending := true }
      ∧ keptBut [.poll, .gates, .attention, .boarding] s t := by
  let f : Gate → Gate := fun x => { x with replyPending := true }
  have derived := State.deriveBoarding_touches ((s.heard a health).repeatAnswer a)
  have again := ((s.heard_touches a health).trans (State.modGate_touches _ a f)).trans derived
  refine ⟨(derived.1.gate (by decide) a).trans ?_, (again.mono (by decide)).1⟩
  exact (State.modGate_gate_same _ a f).trans (congrArg _ (State.heard_gate hg health))

/-! ### A presentation at a gate without a claim -/

/-- The checks of a presentation read nothing that hearing the gate changes (R162, R164). -/
theorem State.heard_presentChecks (hg : s.gate a = some g) (health : Health) (station : Option Nat)
    (found : Option EntRecord) :
    presentChecks (s.heard a health) station found = presentChecks s station found := by
  rw [State.heard_eq hg]
  rfl

theorem State.heard_claimOf (s : State) (a : Nat) (health : Health) : (s.heard a health).claimOf a = s.claimOf a :=
  (s.heard_touches a health).1.claimOf (by decide) a

theorem State.heard_ent (s : State) (a : Nat) (health : Health) : (s.heard a health).ent = s.ent := by
  have ent : s.ent = (s.heard a health).ent := (s.heard_touches a health).1 .ent (by decide)
  exact ent.symm

/-- A refusal leaves the answer at the gate, and nothing else (R163, R164). -/
theorem State.presented_refused (hg : s.gate a = some g) (free : s.claimOf a = none) (health : Health) (toggle : Bool)
    {m : Media} {why : Reason}
    (refused : refusalOf (presentChecks s g.station ((entFind s.ent.table m).map (·.2))) = some why) :
    let t := State.replied a toggle ((s.heard a health).present a m)
    answeredGate t a toggle (.refuse why) ∧ keptBut [.poll, .gates, .attention, .boarding] s t := by
  have gate := State.heard_gate hg health
  have result : (s.heard a health).present a m = (s.heard a health, .refuse why) := by
    refine State.present_refused gate ((s.heard_claimOf a health).trans free) ?_
    rw [s.heard_ent, State.heard_presentChecks hg]
    exact refused
  have replied := (s.heard_touches a health).trans (State.replied_touches a toggle (s.heard a health, .refuse why))
  rw [result]
  exact ⟨State.replied_answeredGate (p := (s.heard a health, .refuse why)) gate rfl rfl toggle,
    (replied.mono (by decide)).1⟩

/-- The opening of a claim between changes that leave the records, the claims and the table. -/
theorem ClaimOpened.between {before after : List Part} {x : Claim} {q : StopRecord} {r : EntRecord} {v u t : State}
    (h : ClaimOpened x q r v u) (first : keptBut before s v) (last : keptBut after u t)
    (hb : ∀ p ∈ [Part.records, .claims, .ent], p ∉ before) (ha : ∀ p ∈ [Part.records, .claims, .ent], p ∉ after) :
    ClaimOpened x q r s t := by
  obtain ⟨-, lastId⟩ : _ ∧ _ := last .claims (ha _ (by decide))
  have ent : s.ent = v.ent := first .ent (hb _ (by decide))
  have kept : u.ent = t.ent := last .ent (ha _ (by decide))
  exact
    { issued := h.issued.trans lastId
      claims := (last.claims (ha _ (by decide))).trans (h.claims.trans (by rw [first.claims (hb _ (by decide))]))
      record := (last.record (ha _ (by decide)) _).trans h.record
      other := (last.record (ha _ (by decide)) _).trans (h.other.trans (first.record (hb _ (by decide)) _))
      presented := kept ▸ h.presented
      slots := fun m away => by rw [← kept, h.slots m away, ent] }

/-- The claim that a presentation at a gate opens, with the id issued when the gate was heard (R165). -/
theorem State.heard_newClaim (hg : s.gate a = some g) (health : Health) (slot : Nat) (r : EntRecord) (c : Car)
    (n : Nat) :
    (s.heard a health).newClaim a slot r c n
      = ⟨(s.heard a health).adm.issue, a, c, slot, r.media, n, s.now + sec (s.par 0xA0)⟩ := by
  rw [State.newClaim, State.heard_eq hg]
  rfl

theorem State.heard_recordAt (hg : s.gate a = some g) (health : Health) (k : Nat) :
    (s.heard a health).recordAt k = s.recordAt k := by
  rw [State.heard_eq hg]
  rfl

section
variable {m : Media} {k slot : Nat} {r : EntRecord} {c : Car} {q : StopRecord}

/-- A presentation of which no check fails, at a gate that was heard (R164, R165). -/
theorem State.heard_present_admitted (hg : s.gate a = some g) (free : s.claimOf a = none) (health : Health)
    (passed : refusalOf (presentChecks s g.station (some r)) = none)
    (found : entFind s.ent.table m = some (slot, r)) (hs : g.station = some k) (hk : s.recordAt k = some (c, q)) :
    (s.heard a health).present a m
      = ((s.heard a health).openClaim a slot r c (personsAllowed r q.free),
          .admission (s.heard a health).adm.issue (personsAllowed r q.free)
            (ridesLeft r (personsAllowed r q.free))) := by
  refine State.present_admitted (State.heard_gate hg health) ((s.heard_claimOf a health).trans free) ?_
    ((s.heard_ent a health).symm ▸ found) hs ((State.heard_recordAt hg health k).trans hk)
  rw [State.heard_presentChecks hg]
  exact passed

/-- The claim opened, with the gate answered (R163, R165). -/
theorem State.heard_openClaim (hg : s.gate a = some g) (health : Health) (toggle : Bool)
    (hq : s.record c = some q) (hr : entGet s.ent.table slot = some r) (n : Nat) (y : Answer) :
    let t := State.replied a toggle ((s.heard a health).openClaim a slot r c n, y)
    answeredGate t a toggle y ∧ ClaimOpened ((s.heard a health).newClaim a slot r c n) q r s t := by
  have heard := (s.heard_touches a health).1
  have replied := (State.replied_touches a toggle ((s.heard a health).openClaim a slot r c n, y)).1
  have opened := State.openClaim_opened (s := s.heard a health) ((heard.record (by decide) c).trans hq)
    ((s.heard_ent a health).symm ▸ hr) a n
  have told : ((s.heard a health).openClaim a slot r c n).gate a = some (g.heard health) :=
    (State.gate_of_gates (State.openClaim_gates _ a slot r c n) a).trans (State.heard_gate hg health)
  exact ⟨State.replied_answeredGate (p := ((s.heard a health).openClaim a slot r c n, y)) told rfl rfl toggle,
    opened.between heard replied (by decide) (by decide)⟩

end

/-- A memory's id is among the ids held (R165). -/
theorem State.memory_mem_heldIds {j : Nat} {x : Gate} {m : Memory} (hj : s.gate j = some x) (hm : x.memory = some m) :
    m.id ∈ s.adm.heldIds := by
  refine List.mem_append_right _ (List.mem_filterMap.2 ⟨x, ?_, by rw [hm]; rfl⟩)
  unfold State.gate at hj
  split at hj
  · cases hj
  · exact List.mem_of_getElem? hj

/-- The id issued when a gate was heard is held by no claim and no memory (R165). -/
theorem State.heard_issue_free (hg : s.gate a = some g) (health : Health) (claims : s.adm.claims.length ≤ 16)
    (gates : s.adm.gates.length = 16) :
    (∀ x ∈ s.adm.claims, x.id ≠ (s.heard a health).adm.issue)
      ∧ ∀ j x m, s.gate j = some x → x.memory = some m → m.id ≠ (s.heard a health).adm.issue := by
  have adm := congrArg State.adm (State.heard_eq hg health)
  have list : (s.heard a health).adm.claims = s.adm.claims := (s.heard_touches a health).1.claims (by decide)
  have free : (s.heard a health).adm.issue ∉ (s.heard a health).adm.heldIds := by
    refine AdmState.issue_free (list ▸ claims) ?_
    rw [adm, State.aside_adm, List.length_set, gates]
  refine ⟨fun x hx same => free ?_, fun j x m hj hm same => free ?_⟩
  · rw [← same]
    exact List.mem_append_left _ (List.mem_map_of_mem (list.symm ▸ hx))
  · rw [← same]
    by_cases own : j = a
    · subst own
      obtain rfl := Option.some.inj (hg.symm.trans hj)
      exact State.memory_mem_heldIds (State.heard_gate hg health) hm
    · exact State.memory_mem_heldIds ((s.heard_sameOtherGates a health j own).trans hj) hm

end

/-! ### The statement -/

/-- Settles O59: a frame that is not good is a miss; a good one is handled in the state in which its gate was heard, by
its message and its toggle; and where the gate holds a claim its lapse may be taken before. -/
theorem gateResponseOpensClaims : Obligations.GateResponseOpensClaims := by
  intro ok addr head body a g s polled hg due _ kind toggle health frame length good online missed
  refine ⟨fun other bad => ?_, fun bad => ?_, fun n window => ?_, fun h => ?_⟩
  · exact ⟨_, exec_gateResponse_of_miss polled due (gateFrameOf_of_bad a ok bad), State.endAwait_miss hg⟩
  · exact ⟨_, exec_gateResponse_of_miss polled due (gateFrameOf_not_good bad), State.endAwait_miss hg⟩
  · exact ⟨_, exec_responseWindowExpiry_of_running polled window due, State.endAwait_miss (s := s.advance n) hg⟩
  obtain ⟨m, hm, response⟩ := gateFrameOf_good h
  obtain ⟨idle, closed, timer, others, news⟩ := State.handled_kept hg health toggle m
  have heard := State.heard_gate hg health
  have speaks (h : kind ≠ 0) : m ≠ .noMessage := mt (gateMessageOf_noMessage hm).1 h
  have handled := exec_gateResponse_of_good polled due response
  change exec (.gateResponse ok frame) s = .next ((s.heard a health).takeMessage a toggle m).deriveBoarding at handled
  refine ⟨_, handled, State.deriveBoarding_boardingInv _, idle, closed, timer, others, news,
    fun silent => ?silent, fun message same => ?duplicate, fun b0 b1 b2 b3 b4 present five new free => ?presented,
    fun x u present new hx inv run => ?lapses⟩
  case silent =>
    rw [(gateMessageOf_noMessage hm).2 silent]
    exact State.handled_noMessage hg health
  case duplicate =>
    rw [State.takeMessage_duplicate heard same (speaks message)]
    exact State.handled_duplicate hg health
  case presented =>
    have presents := speaks (present.trans_ne Nat.one_ne_zero)
    change head.toNat / 2 % 8 = 1 at present
    rw [present, five] at hm
    obtain rfl : GateMessage.present (b0 ++ b1 ++ b2 ++ b3 ++ b4) = m := Option.some.inj hm
    rw [State.takeMessage_new heard new presents]
    refine ⟨fun why refused => State.presented_refused hg free health toggle refused,
      fun slot r c q k passed found hs hk => ?_⟩
    rw [found] at passed
    have admitted := State.heard_present_admitted hg free health passed found hs hk
    obtain ⟨answered, opened⟩ := State.heard_openClaim hg health toggle (State.recordAt_record hk)
      (entGet_of_entFind found) (personsAllowed r q.free)
      (.admission (s.heard a health).adm.issue (personsAllowed r q.free) (ridesLeft r (personsAllowed r q.free)))
    rw [State.heard_newClaim hg] at opened
    rw [State.taken, admitted]
    exact ⟨_, AdmState.freshId_ne_zero _ _ _, opened.issued, answered, State.heard_issue_free hg health, opened.claims,
      opened.record, opened.other, opened.presented, opened.slots⟩
  case lapses =>
    have presents := speaks (present.trans_ne Nat.one_ne_zero)
    change head.toNat / 2 % 8 = 1 at present
    rw [present] at hm
    obtain ⟨b0, b1, b2, b3, b4, -, rfl⟩ := gateMessageOf_present hm
    have gate : s.gate x.gate = some g := (State.claimOf_gate hx).symm ▸ hg
    have remembers := State.lapseClaim_gate gate
    rw [State.claimOf_gate hx] at remembers
    obtain ⟨dueAfter, -, -, -, -, polledAfter, -⟩ : _ ∧ _ ∧ _ ∧ _ ∧ _ ∧ _ ∧ _ :=
      (s.lapseClaim_touches x).1 .poll (by decide)
    have lapsed := exec_claimLapse_own inv hg hx run
    obtain ⟨-, -, -, -, -, -, -, claims⟩ := inv
    rw [lapsed, handled,
      exec_gateResponse_of_good (polledAfter ▸ polled) (dueAfter ▸ due) response,
      State.takeMessage_new heard new presents, State.takeMessage_new (State.heard_gate remembers _) new presents,
      State.taken, State.taken, State.present_after_lapse claims hg hx]

end Sys2Proof.Machine
end
